-- ==== Sys2Proof/Word.lean ====
section
/-! DEFINITION. The word types of BC67 and the two plainest operations on fixed-length arrays.

A block is one 128-bit word (R80); R11 reads its 16 bytes as one unsigned integer `B` whose bit `n` is block bit
`n`, and that integer is how the model holds it. A sample crosses a port in one 64-bit lane (R22, R24, R25). -/

namespace Sys2Proof

/-- The 128-bit block word of R11 and R80: block bit `n` is bit `n`. -/
abbrev Block := BitVec 128

/-- One sample lane of a port or of a tile buffer (R22, R24, R25). -/
abbrev Lane := BitVec 64

/-- Exactly 16 samples, row-major (R59). -/
abbrev Tile := Vector Lane 16

/-- Byte `k` of a block (R11: `B = sum over k of blk[k] * 2^(8k)`). -/
def blockByte (B : Block) (k : Nat) : BitVec 8 := B.extractLsb' (8 * k) 8

/-- Entry `i` of an array; `d` where the array has no such entry. -/
def rd {α : Type} {n : Nat} (v : Vector α n) (i : Nat) (d : α) : α := if h : i < n then v[i] else d

/-- The array of length `n` whose entry `i` is `f i`. -/
def tab {α : Type} (n : Nat) (f : Nat → α) : Vector α n := Vector.ofFn fun i => f i.val

/-- Entry `(i, j)` of an array of arrays; `d` where there is none. -/
def cell {α : Type} {a b : Nat} (v : Vector (Vector α b) a) (i j : Nat) (d : α) : α :=
  rd (rd v i (tab b fun _ => d)) j d

/-- The array of arrays whose entry `(i, j)` is `f i j`. -/
def grid {α : Type} (a b : Nat) (f : Nat → Nat → α) : Vector (Vector α b) a := tab a fun i => tab b (f i)

end Sys2Proof
end

