-- ==== Sys2Proof/Machine/Cursor.lean ====
section
/-! DEFINITION. The bit access of 40_bitcursor.md on a block word, without the bound check: block bit `n`, reading
and writing a field, and reading and writing a run of consecutive fields. The checked accesses that move the
cursor register are `State.getAll` and `State.putAll` in Machine/Ops.lean; Decode.lean uses the ones here. -/

namespace Sys2Proof

/-- `BIT(n)` (R140). -/
def bit (B : Block) (n : Nat) : Nat := (B.getLsbD n).toNat

/-- `RDBITS(off, w)` (R141) where `off + w <= 128`: OR together the `w` bits from block bit `off`. -/
def rdbits (B : Block) (off w : Nat) : Nat :=
  (List.range w).foldl (fun v k => v ||| (bit B (off + k) <<< k)) 0

/-- One turn of the loop of R142: block bit `n` becomes `x`, every other bit keeps its value (mask-and-or). -/
def putBit (B : Block) (n : Nat) (x : Bool) : Block :=
  (B &&& ~~~(1#128 <<< n)) ||| ((if x then 1#128 else 0#128) <<< n)

/-- `WRBITS(off, w, v)` (R142) where `off + w <= 128`. -/
def wrbits (B : Block) (off w v : Nat) : Block :=
  (List.range w).foldl (fun A k => putBit A (off + k) (v.testBit k)) B

/-- The values of consecutive fields of the given widths, from block bit `off`. -/
def readAll (B : Block) : List Nat → Nat → List Nat
  | [], _ => []
  | w :: ws, off => rdbits B off w :: readAll B ws (off + w)

/-- Writes consecutive fields, each a width and a value, from block bit `off`. -/
def writeAll : List (Nat × Nat) → Block → Nat → Block
  | [], B, _ => B
  | (w, v) :: fs, B, off => writeAll fs (wrbits B off w v) (off + w)

/-- Total width of a run of fields. -/
def totalWidth : List Nat → Nat
  | [] => 0
  | w :: ws => w + totalWidth ws

end Sys2Proof
end

