-- ==== Sys2Proof/Config.lean ====
section
/-! DEFINITION. What an implementation of BC67 fixes: the types of its table parameters (R8, decision D22).

Every table the source does not print is a named parameter of the model. `Tables` is their record; the machine's
phases take it as an argument, so that they say what BC67 does over arbitrary tables (R144). The values the spec
supplies are `Sys2Proof.tables`, in Machine/Tables.lean. BC67 leaves no result of an operation open (every open
behaviour of 93_implementation_defined.md is settled by a rule), so there is no free value here. -/

namespace Sys2Proof

/-- A row of `BC7_DESC` (R86), with the table's column names. -/
structure Desc7 where
  /-- partition count, regions minus 1 -/
  P : Nat
  /-- width of the shape field -/
  PB : Nat
  /-- rotation bits -/
  RB : Nat
  /-- index-mode bits -/
  IB : Nat
  /-- bits per colour channel per endpoint as stored -/
  CB : Nat
  /-- bits of alpha per endpoint as stored; 0: the mode has no alpha -/
  AB : Nat
  /-- number of p-bits -/
  NP : Nat
  /-- width of an array-1 index -/
  IP : Nat
  /-- width of an array-2 index; 0: no second array -/
  IP2 : Nat
deriving DecidableEq, Repr

/-- A row of `BC6H_DESC` (R100), with the table's column names. -/
structure Desc6 where
  /-- selector value, as the little-endian field -/
  sel : Nat
  /-- width of the selector -/
  selw : Nat
  /-- endpoints 1.. are stored as differences from endpoint 0 -/
  tr : Bool
  /-- partition count -/
  P : Nat
  /-- precision of endpoint 0 -/
  EP : Nat
  dR : Nat
  dG : Nat
  dB : Nat
  /-- index width -/
  IP : Nat
deriving DecidableEq, Repr

/-- The field a BC6H header bit belongs to (R97, R98): the selector `m`, the shape `d`, or channel `c` of
endpoint `k` (`W X Y Z` are endpoints 0 1 2 3; R=0, G=1, B=2). -/
inductive HdrField where
  | m
  | d
  | ep (k c : Nat)
deriving DecidableEq, Repr

/-- The table parameters of R8 (constant state of R20 (a); the ROMs of R35). -/
structure Tables where
  /-- `BC7_DESC`, mode 0 first -/
  desc7 : List Desc7
  /-- `BC6H_DESC`, mode 1 first -/
  desc6 : List Desc6
  /-- `BC6H_LAYOUT`, mode 1 first: header bit position `k` carries bit `b` of field `f`, `(f, b)` entry `k` -/
  layout6 : List (List (HdrField × Nat))
  /-- `PART2`: one row a shape, 16 hexadecimal digits, the leftmost that of pixel 0 -/
  part2 : List Nat
  /-- `PART3`, rows as in `part2` -/
  part3 : List Nat
  fix2 : List Nat
  fix3a : List Nat
  fix3b : List Nat
  w2 : List Nat
  w3 : List Nat
  w4 : List Nat
  /-- `WMAX`, `WROUND`, `WSHIFT` of the interpolator -/
  wMax : Nat
  wRound : Nat
  wShift : Nat
  /-- `F16MAX` -/
  f16max : Nat
deriving DecidableEq, Repr

end Sys2Proof
end

