-- ==== Sys2Proof/Machine/Tables.lean ====
section
/-! DEFINITION. The constant tables of BC67 (the ROMs of R35; read-only at all times, R60) and their lookup
operations (41_tables.md, R150 to R159). `tables` holds the values the spec supplies for the parameters of R8.
This file stands under Machine/ so that a table value can be corrected; Decode.lean and WellFormed.lean read it. -/

namespace Sys2Proof

/-! ## Descriptors (R86, R100) -/

/-- `BC7_DESC` (R86): P PB RB IB CB AB NP IP IP2. -/
def desc7Rows : List Desc7 :=
  [ ⟨2, 4, 0, 0, 4, 0, 6, 3, 0⟩,
    ⟨1, 6, 0, 0, 6, 0, 2, 3, 0⟩,
    ⟨2, 6, 0, 0, 5, 0, 0, 2, 0⟩,
    ⟨1, 6, 0, 0, 7, 0, 4, 2, 0⟩,
    ⟨0, 0, 2, 1, 5, 6, 0, 2, 3⟩,
    ⟨0, 0, 2, 0, 7, 8, 0, 2, 2⟩,
    ⟨0, 0, 0, 0, 7, 7, 2, 4, 0⟩,
    ⟨1, 6, 0, 0, 5, 5, 4, 2, 0⟩ ]

/-- `BC6H_DESC` (R100), mode 1 first: sel selw tr P EP dR dG dB IP. -/
def desc6Rows : List Desc6 :=
  [ ⟨0x00, 2, true, 1, 10, 5, 5, 5, 3⟩,
    ⟨0x01, 2, true, 1, 7, 6, 6, 6, 3⟩,
    ⟨0x02, 5, true, 1, 11, 5, 4, 4, 3⟩,
    ⟨0x06, 5, true, 1, 11, 4, 5, 4, 3⟩,
    ⟨0x0A, 5, true, 1, 11, 4, 4, 5, 3⟩,
    ⟨0x0E, 5, true, 1, 9, 5, 5, 5, 3⟩,
    ⟨0x12, 5, true, 1, 8, 6, 5, 5, 3⟩,
    ⟨0x16, 5, true, 1, 8, 5, 6, 5, 3⟩,
    ⟨0x1A, 5, true, 1, 8, 5, 5, 6, 3⟩,
    ⟨0x1E, 5, false, 1, 6, 6, 6, 6, 3⟩,
    ⟨0x03, 5, false, 0, 10, 10, 10, 10, 4⟩,
    ⟨0x07, 5, true, 0, 11, 9, 9, 9, 4⟩,
    ⟨0x0B, 5, true, 0, 12, 8, 8, 8, 4⟩,
    ⟨0x0F, 5, true, 0, 16, 4, 4, 4, 4⟩ ]

/-! ## BC6H header layouts (R97 to R114) -/

/-- Header bits carrying bits `lo`, `lo+1`, .. of field `f`, `n` of them (the runs of R101 to R114). -/
def hdrRun (f : HdrField) (lo n : Nat) : List (HdrField × Nat) := (List.range n).map fun i => (f, lo + i)

/-- Red, green and blue of endpoint `k` (R98). -/
def red (k : Nat) : HdrField := .ep k 0
def green (k : Nat) : HdrField := .ep k 1
def blue (k : Nat) : HdrField := .ep k 2

/-- `BC6H_LAYOUT[1]` (R101), in runs of ascending block bits. -/
def layoutM1 : List (HdrField × Nat) :=
  hdrRun .m 0 2 ++ hdrRun (green 2) 4 1 ++ hdrRun (blue 2) 4 1 ++ hdrRun (blue 3) 4 1 ++ hdrRun (red 0) 0 10 ++
  hdrRun (green 0) 0 10 ++ hdrRun (blue 0) 0 10 ++ hdrRun (red 1) 0 5 ++ hdrRun (green 3) 4 1 ++
  hdrRun (green 2) 0 4 ++ hdrRun (green 1) 0 5 ++ hdrRun (blue 3) 0 1 ++ hdrRun (green 3) 0 4 ++
  hdrRun (blue 1) 0 5 ++ hdrRun (blue 3) 1 1 ++ hdrRun (blue 2) 0 4 ++ hdrRun (red 2) 0 5 ++
  hdrRun (blue 3) 2 1 ++ hdrRun (red 3) 0 5 ++ hdrRun (blue 3) 3 1 ++ hdrRun .d 0 5

/-- `BC6H_LAYOUT[2]` (R102), in runs of ascending block bits. -/
def layoutM2 : List (HdrField × Nat) :=
  hdrRun .m 0 2 ++ hdrRun (green 2) 5 1 ++ hdrRun (green 3) 4 1 ++ hdrRun (green 3) 5 1 ++ hdrRun (red 0) 0 7 ++
  hdrRun (blue 3) 0 1 ++ hdrRun (blue 3) 1 1 ++ hdrRun (blue 2) 4 1 ++ hdrRun (green 0) 0 7 ++
  hdrRun (blue 2) 5 1 ++ hdrRun (blue 3) 2 1 ++ hdrRun (green 2) 4 1 ++ hdrRun (blue 0) 0 7 ++
  hdrRun (blue 3) 3 1 ++ hdrRun (blue 3) 5 1 ++ hdrRun (blue 3) 4 1 ++ hdrRun (red 1) 0 6 ++
  hdrRun (green 2) 0 4 ++ hdrRun (green 1) 0 6 ++ hdrRun (green 3) 0 4 ++ hdrRun (blue 1) 0 6 ++
  hdrRun (blue 2) 0 4 ++ hdrRun (red 2) 0 6 ++ hdrRun (red 3) 0 6 ++ hdrRun .d 0 5

/-- `BC6H_LAYOUT[3]` (R103), in runs of ascending block bits. -/
def layoutM3 : List (HdrField × Nat) :=
  hdrRun .m 0 5 ++ hdrRun (red 0) 0 10 ++ hdrRun (green 0) 0 10 ++ hdrRun (blue 0) 0 10 ++ hdrRun (red 1) 0 5 ++
  hdrRun (red 0) 10 1 ++ hdrRun (green 2) 0 4 ++ hdrRun (green 1) 0 4 ++ hdrRun (green 0) 10 1 ++
  hdrRun (blue 3) 0 1 ++ hdrRun (green 3) 0 4 ++ hdrRun (blue 1) 0 4 ++ hdrRun (blue 0) 10 1 ++
  hdrRun (blue 3) 1 1 ++ hdrRun (blue 2) 0 4 ++ hdrRun (red 2) 0 5 ++ hdrRun (blue 3) 2 1 ++
  hdrRun (red 3) 0 5 ++ hdrRun (blue 3) 3 1 ++ hdrRun .d 0 5

/-- `BC6H_LAYOUT[4]` (R104), in runs of ascending block bits. -/
def layoutM4 : List (HdrField × Nat) :=
  hdrRun .m 0 5 ++ hdrRun (red 0) 0 10 ++ hdrRun (green 0) 0 10 ++ hdrRun (blue 0) 0 10 ++ hdrRun (red 1) 0 4 ++
  hdrRun (red 0) 10 1 ++ hdrRun (green 3) 4 1 ++ hdrRun (green 2) 0 4 ++ hdrRun (green 1) 0 5 ++
  hdrRun (green 0) 10 1 ++ hdrRun (green 3) 0 4 ++ hdrRun (blue 1) 0 4 ++ hdrRun (blue 0) 10 1 ++
  hdrRun (blue 3) 1 1 ++ hdrRun (blue 2) 0 4 ++ hdrRun (red 2) 0 4 ++ hdrRun (blue 3) 0 1 ++
  hdrRun (blue 3) 2 1 ++ hdrRun (red 3) 0 4 ++ hdrRun (green 2) 4 1 ++ hdrRun (blue 3) 3 1 ++ hdrRun .d 0 5

/-- `BC6H_LAYOUT[5]` (R105), in runs of ascending block bits. -/
def layoutM5 : List (HdrField × Nat) :=
  hdrRun .m 0 5 ++ hdrRun (red 0) 0 10 ++ hdrRun (green 0) 0 10 ++ hdrRun (blue 0) 0 10 ++ hdrRun (red 1) 0 4 ++
  hdrRun (red 0) 10 1 ++ hdrRun (blue 2) 4 1 ++ hdrRun (green 2) 0 4 ++ hdrRun (green 1) 0 4 ++
  hdrRun (green 0) 10 1 ++ hdrRun (blue 3) 0 1 ++ hdrRun (green 3) 0 4 ++ hdrRun (blue 1) 0 5 ++
  hdrRun (blue 0) 10 1 ++ hdrRun (blue 2) 0 4 ++ hdrRun (red 2) 0 4 ++ hdrRun (blue 3) 1 1 ++
  hdrRun (blue 3) 2 1 ++ hdrRun (red 3) 0 4 ++ hdrRun (blue 3) 4 1 ++ hdrRun (blue 3) 3 1 ++ hdrRun .d 0 5

/-- `BC6H_LAYOUT[6]` (R106), in runs of ascending block bits. -/
def layoutM6 : List (HdrField × Nat) :=
  hdrRun .m 0 5 ++ hdrRun (red 0) 0 9 ++ hdrRun (blue 2) 4 1 ++ hdrRun (green 0) 0 9 ++ hdrRun (green 2) 4 1 ++
  hdrRun (blue 0) 0 9 ++ hdrRun (blue 3) 4 1 ++ hdrRun (red 1) 0 5 ++ hdrRun (green 3) 4 1 ++
  hdrRun (green 2) 0 4 ++ hdrRun (green 1) 0 5 ++ hdrRun (blue 3) 0 1 ++ hdrRun (green 3) 0 4 ++
  hdrRun (blue 1) 0 5 ++ hdrRun (blue 3) 1 1 ++ hdrRun (blue 2) 0 4 ++ hdrRun (red 2) 0 5 ++
  hdrRun (blue 3) 2 1 ++ hdrRun (red 3) 0 5 ++ hdrRun (blue 3) 3 1 ++ hdrRun .d 0 5

/-- `BC6H_LAYOUT[7]` (R107), in runs of ascending block bits. -/
def layoutM7 : List (HdrField × Nat) :=
  hdrRun .m 0 5 ++ hdrRun (red 0) 0 8 ++ hdrRun (green 3) 4 1 ++ hdrRun (blue 2) 4 1 ++ hdrRun (green 0) 0 8 ++
  hdrRun (blue 3) 2 1 ++ hdrRun (green 2) 4 1 ++ hdrRun (blue 0) 0 8 ++ hdrRun (blue 3) 3 1 ++
  hdrRun (blue 3) 4 1 ++ hdrRun (red 1) 0 6 ++ hdrRun (green 2) 0 4 ++ hdrRun (green 1) 0 5 ++
  hdrRun (blue 3) 0 1 ++ hdrRun (green 3) 0 4 ++ hdrRun (blue 1) 0 5 ++ hdrRun (blue 3) 1 1 ++
  hdrRun (blue 2) 0 4 ++ hdrRun (red 2) 0 6 ++ hdrRun (red 3) 0 6 ++ hdrRun .d 0 5

/-- `BC6H_LAYOUT[8]` (R108), in runs of ascending block bits. -/
def layoutM8 : List (HdrField × Nat) :=
  hdrRun .m 0 5 ++ hdrRun (red 0) 0 8 ++ hdrRun (blue 3) 0 1 ++ hdrRun (blue 2) 4 1 ++ hdrRun (green 0) 0 8 ++
  hdrRun (green 2) 5 1 ++ hdrRun (green 2) 4 1 ++ hdrRun (blue 0) 0 8 ++ hdrRun (green 3) 5 1 ++
  hdrRun (blue 3) 4 1 ++ hdrRun (red 1) 0 5 ++ hdrRun (green 3) 4 1 ++ hdrRun (green 2) 0 4 ++
  hdrRun (green 1) 0 6 ++ hdrRun (green 3) 0 4 ++ hdrRun (blue 1) 0 5 ++ hdrRun (blue 3) 1 1 ++
  hdrRun (blue 2) 0 4 ++ hdrRun (red 2) 0 5 ++ hdrRun (blue 3) 2 1 ++ hdrRun (red 3) 0 5 ++
  hdrRun (blue 3) 3 1 ++ hdrRun .d 0 5

/-- `BC6H_LAYOUT[9]` (R109), in runs of ascending block bits. -/
def layoutM9 : List (HdrField × Nat) :=
  hdrRun .m 0 5 ++ hdrRun (red 0) 0 8 ++ hdrRun (blue 3) 1 1 ++ hdrRun (blue 2) 4 1 ++ hdrRun (green 0) 0 8 ++
  hdrRun (blue 2) 5 1 ++ hdrRun (green 2) 4 1 ++ hdrRun (blue 0) 0 8 ++ hdrRun (blue 3) 5 1 ++
  hdrRun (blue 3) 4 1 ++ hdrRun (red 1) 0 5 ++ hdrRun (green 3) 4 1 ++ hdrRun (green 2) 0 4 ++
  hdrRun (green 1) 0 5 ++ hdrRun (blue 3) 0 1 ++ hdrRun (green 3) 0 4 ++ hdrRun (blue 1) 0 6 ++
  hdrRun (blue 2) 0 4 ++ hdrRun (red 2) 0 5 ++ hdrRun (blue 3) 2 1 ++ hdrRun (red 3) 0 5 ++
  hdrRun (blue 3) 3 1 ++ hdrRun .d 0 5

/-- `BC6H_LAYOUT[10]` (R110), in runs of ascending block bits. -/
def layoutM10 : List (HdrField × Nat) :=
  hdrRun .m 0 5 ++ hdrRun (red 0) 0 6 ++ hdrRun (green 3) 4 1 ++ hdrRun (blue 3) 0 1 ++ hdrRun (blue 3) 1 1 ++
  hdrRun (blue 2) 4 1 ++ hdrRun (green 0) 0 6 ++ hdrRun (green 2) 5 1 ++ hdrRun (blue 2) 5 1 ++
  hdrRun (blue 3) 2 1 ++ hdrRun (green 2) 4 1 ++ hdrRun (blue 0) 0 6 ++ hdrRun (green 3) 5 1 ++
  hdrRun (blue 3) 3 1 ++ hdrRun (blue 3) 5 1 ++ hdrRun (blue 3) 4 1 ++ hdrRun (red 1) 0 6 ++
  hdrRun (green 2) 0 4 ++ hdrRun (green 1) 0 6 ++ hdrRun (green 3) 0 4 ++ hdrRun (blue 1) 0 6 ++
  hdrRun (blue 2) 0 4 ++ hdrRun (red 2) 0 6 ++ hdrRun (red 3) 0 6 ++ hdrRun .d 0 5

/-- `BC6H_LAYOUT[11]` (R111), in runs of ascending block bits. -/
def layoutM11 : List (HdrField × Nat) :=
  hdrRun .m 0 5 ++ hdrRun (red 0) 0 10 ++ hdrRun (green 0) 0 10 ++ hdrRun (blue 0) 0 10 ++ hdrRun (red 1) 0 10 ++
  hdrRun (green 1) 0 10 ++ hdrRun (blue 1) 0 10

/-- `BC6H_LAYOUT[12]` (R112), in runs of ascending block bits. -/
def layoutM12 : List (HdrField × Nat) :=
  hdrRun .m 0 5 ++ hdrRun (red 0) 0 10 ++ hdrRun (green 0) 0 10 ++ hdrRun (blue 0) 0 10 ++ hdrRun (red 1) 0 9 ++
  hdrRun (red 0) 10 1 ++ hdrRun (green 1) 0 9 ++ hdrRun (green 0) 10 1 ++ hdrRun (blue 1) 0 9 ++
  hdrRun (blue 0) 10 1

/-- `BC6H_LAYOUT[13]` (R113), in runs of ascending block bits. -/
def layoutM13 : List (HdrField × Nat) :=
  hdrRun .m 0 5 ++ hdrRun (red 0) 0 10 ++ hdrRun (green 0) 0 10 ++ hdrRun (blue 0) 0 10 ++ hdrRun (red 1) 0 8 ++
  hdrRun (red 0) 11 1 ++ hdrRun (red 0) 10 1 ++ hdrRun (green 1) 0 8 ++ hdrRun (green 0) 11 1 ++
  hdrRun (green 0) 10 1 ++ hdrRun (blue 1) 0 8 ++ hdrRun (blue 0) 11 1 ++ hdrRun (blue 0) 10 1

/-- `BC6H_LAYOUT[14]` (R114), in runs of ascending block bits. -/
def layoutM14 : List (HdrField × Nat) :=
  hdrRun .m 0 5 ++ hdrRun (red 0) 0 10 ++ hdrRun (green 0) 0 10 ++ hdrRun (blue 0) 0 10 ++ hdrRun (red 1) 0 4 ++
  hdrRun (red 0) 15 1 ++ hdrRun (red 0) 14 1 ++ hdrRun (red 0) 13 1 ++ hdrRun (red 0) 12 1 ++
  hdrRun (red 0) 11 1 ++ hdrRun (red 0) 10 1 ++ hdrRun (green 1) 0 4 ++ hdrRun (green 0) 15 1 ++
  hdrRun (green 0) 14 1 ++ hdrRun (green 0) 13 1 ++ hdrRun (green 0) 12 1 ++ hdrRun (green 0) 11 1 ++
  hdrRun (green 0) 10 1 ++ hdrRun (blue 1) 0 4 ++ hdrRun (blue 0) 15 1 ++ hdrRun (blue 0) 14 1 ++
  hdrRun (blue 0) 13 1 ++ hdrRun (blue 0) 12 1 ++ hdrRun (blue 0) 11 1 ++ hdrRun (blue 0) 10 1

def layoutRows : List (List (HdrField × Nat)) :=
  [ layoutM1, layoutM2, layoutM3, layoutM4, layoutM5, layoutM6, layoutM7,
    layoutM8, layoutM9, layoutM10, layoutM11, layoutM12, layoutM13, layoutM14 ]

/-! ## Shapes (R152, R153): one hexadecimal digit a pixel, grouped by tile row -/

/-- Shapes 0 to 15 of `PART2`. -/
def part2a : List Nat :=
  [ 0x0011_0011_0011_0011, 0x0001_0001_0001_0001, 0x0111_0111_0111_0111, 0x0001_0011_0011_0111,
    0x0000_0001_0001_0011, 0x0011_0111_0111_1111, 0x0001_0011_0111_1111, 0x0000_0001_0011_0111,
    0x0000_0000_0001_0011, 0x0011_0111_1111_1111, 0x0000_0001_0111_1111, 0x0000_0000_0001_0111,
    0x0001_0111_1111_1111, 0x0000_0000_1111_1111, 0x0000_1111_1111_1111, 0x0000_0000_0000_1111 ]

/-- Shapes 16 to 31 of `PART2`. -/
def part2b : List Nat :=
  [ 0x0000_1000_1110_1111, 0x0111_0001_0000_0000, 0x0000_0000_1000_1110, 0x0111_0011_0001_0000,
    0x0011_0001_0000_0000, 0x0000_1000_1100_1110, 0x0000_0000_1000_1100, 0x0111_0011_0011_0001,
    0x0011_0001_0001_0000, 0x0000_1000_1000_1100, 0x0110_0110_0110_0110, 0x0011_0110_0110_1100,
    0x0001_0111_1110_1000, 0x0000_1111_1111_0000, 0x0111_0001_1000_1110, 0x0011_1001_1001_1100 ]

/-- Shapes 32 to 47 of `PART2`. -/
def part2c : List Nat :=
  [ 0x0101_0101_0101_0101, 0x0000_1111_0000_1111, 0x0101_1010_0101_1010, 0x0011_0011_1100_1100,
    0x0011_1100_0011_1100, 0x0101_0101_1010_1010, 0x0110_1001_0110_1001, 0x0101_1010_1010_0101,
    0x0111_0011_1100_1110, 0x0001_0011_1100_1000, 0x0011_0010_0100_1100, 0x0011_1011_1101_1100,
    0x0110_1001_1001_0110, 0x0011_1100_1100_0011, 0x0110_0110_1001_1001, 0x0000_0110_0110_0000 ]

/-- Shapes 48 to 63 of `PART2`. -/
def part2d : List Nat :=
  [ 0x0100_1110_0100_0000, 0x0010_0111_0010_0000, 0x0000_0010_0111_0010, 0x0000_0100_1110_0100,
    0x0110_1100_1001_0011, 0x0011_0110_1100_1001, 0x0110_0011_1001_1100, 0x0011_1001_1100_0110,
    0x0110_1100_1100_1001, 0x0110_0011_0011_1001, 0x0111_1110_1000_0001, 0x0001_1000_1110_0111,
    0x0000_1111_0011_0011, 0x0011_0011_1111_0000, 0x0010_0010_1110_1110, 0x0100_0100_0111_0111 ]

/-- Shapes 0 to 15 of `PART3`. -/
def part3a : List Nat :=
  [ 0x0011_0011_0221_2222, 0x0001_0011_2211_2221, 0x0000_2001_2211_2211, 0x0222_0022_0011_0111,
    0x0000_0000_1122_1122, 0x0011_0011_0022_0022, 0x0022_0022_1111_1111, 0x0011_0011_2211_2211,
    0x0000_0000_1111_2222, 0x0000_1111_1111_2222, 0x0000_1111_2222_2222, 0x0012_0012_0012_0012,
    0x0112_0112_0112_0112, 0x0122_0122_0122_0122, 0x0011_0112_1122_1222, 0x0011_2001_2200_2220 ]

/-- Shapes 16 to 31 of `PART3`. -/
def part3b : List Nat :=
  [ 0x0001_0011_0112_1122, 0x0111_0011_2001_2200, 0x0000_1122_1122_1122, 0x0022_0022_0022_1111,
    0x0111_0111_0222_0222, 0x0001_0001_2221_2221, 0x0000_0011_0122_0122, 0x0000_1100_2210_2210,
    0x0122_0122_0011_0000, 0x0012_0012_1122_2222, 0x0110_1221_1221_0110, 0x0000_0110_1221_1221,
    0x0022_1102_1102_0022, 0x0110_0110_2002_2222, 0x0011_0122_0122_0011, 0x0000_2000_2211_2221 ]

/-- Shapes 32 to 47 of `PART3`. -/
def part3c : List Nat :=
  [ 0x0000_0002_1122_1222, 0x0222_0022_0012_0011, 0x0011_0012_0022_0222, 0x0120_0120_0120_0120,
    0x0000_1111_2222_0000, 0x0120_1201_2012_0120, 0x0120_2012_1201_0120, 0x0011_2200_1122_0011,
    0x0011_1122_2200_0011, 0x0101_0101_2222_2222, 0x0000_0000_2121_2121, 0x0022_1122_0022_1122,
    0x0022_0011_0022_0011, 0x0220_1221_0220_1221, 0x0101_2222_2222_0101, 0x0000_2121_2121_2121 ]

/-- Shapes 48 to 63 of `PART3`. -/
def part3d : List Nat :=
  [ 0x0101_0101_0101_2222, 0x0222_0111_0222_0111, 0x0002_1112_0002_1112, 0x0000_2112_2112_2112,
    0x0222_0111_0111_0222, 0x0002_1112_1112_0002, 0x0110_0110_0110_2222, 0x0000_0000_2112_2112,
    0x0110_0110_2222_2222, 0x0022_0011_0011_0022, 0x0022_1122_1122_0022, 0x0000_0000_0000_2112,
    0x0002_0001_0002_0001, 0x0222_1222_0222_1222, 0x0101_2222_2222_2222, 0x0111_2011_2201_2220 ]

/-! ## Fixup pixels (R155, R156), eight shapes a line -/

/-- `FIX2`. -/
def fix2Rows : List Nat :=
  [15, 15, 15, 15, 15, 15, 15, 15] ++
  [15, 15, 15, 15, 15, 15, 15, 15] ++
  [15, 2, 8, 2, 2, 8, 8, 15] ++
  [2, 8, 2, 2, 8, 8, 2, 2] ++
  [15, 15, 6, 8, 2, 8, 15, 15] ++
  [2, 8, 2, 2, 2, 15, 15, 6] ++
  [6, 2, 6, 8, 15, 15, 2, 2] ++
  [15, 15, 15, 15, 15, 2, 2, 15]

/-- `FIX3A`. -/
def fix3aRows : List Nat :=
  [3, 3, 15, 15, 8, 3, 15, 15] ++
  [8, 8, 6, 6, 6, 5, 3, 3] ++
  [3, 3, 8, 15, 3, 3, 6, 10] ++
  [5, 8, 8, 6, 8, 5, 15, 15] ++
  [8, 15, 3, 5, 6, 10, 8, 15] ++
  [15, 3, 15, 5, 15, 15, 15, 15] ++
  [3, 15, 5, 5, 5, 8, 5, 10] ++
  [5, 10, 8, 13, 15, 12, 3, 3]

/-- `FIX3B`. -/
def fix3bRows : List Nat :=
  [15, 8, 8, 3, 15, 15, 3, 8] ++
  [15, 15, 15, 15, 15, 15, 15, 8] ++
  [15, 8, 15, 3, 15, 8, 15, 8] ++
  [3, 15, 6, 10, 15, 15, 10, 8] ++
  [15, 3, 15, 10, 10, 8, 9, 10] ++
  [6, 15, 8, 15, 3, 6, 6, 8] ++
  [15, 3, 15, 15, 15, 15, 15, 15] ++
  [15, 15, 15, 15, 3, 15, 15, 8]

/-- The table values the spec supplies (R8, decision D22; log entry 1). -/
def tables : Tables where
  desc7 := desc7Rows
  desc6 := desc6Rows
  layout6 := layoutRows
  part2 := part2a ++ part2b ++ part2c ++ part2d
  part3 := part3a ++ part3b ++ part3c ++ part3d
  fix2 := fix2Rows
  fix3a := fix3aRows
  fix3b := fix3bRows
  w2 := [0, 21, 43, 64]
  w3 := [0, 9, 18, 27, 37, 46, 55, 64]
  w4 := [0, 4, 9, 13, 17, 21, 26, 30, 34, 38, 43, 47, 51, 55, 60, 64]
  wMax := 64
  wRound := 32
  wShift := 6
  f16max := 0x7BFF

/-! ## Lookups (R150 to R159): pure functions of their arguments and the tables. The spec gives no answer outside the
argument ranges of R151, R158 and R159, which no operation leaves; what a lookup answers there is the model's own
(DESIGN CHOICE, log entry 10): zero, or what the docstring of the lookup says. -/

/-- `DESC7(m)` (R159). -/
def Tables.bc7 (T : Tables) (m : Nat) : Desc7 := T.desc7.getD m ⟨0, 0, 0, 0, 0, 0, 0, 0, 0⟩

/-- `DESC6(mode)` (R159); modes are numbered from 1. The spec has no descriptor 0: the model answers mode 1's row there
(DESIGN CHOICE, log entry 10), and a zero row above 14. -/
def Tables.bc6h (T : Tables) (mode : Nat) : Desc6 := T.desc6.getD (mode - 1) ⟨0, 0, false, 0, 0, 0, 0, 0, 0⟩

/-- `BC6H_LAYOUT[mode]` (R97, R159). The spec has no layout 0: the model answers mode 1's there (DESIGN CHOICE, log
entry 10), and the empty layout above 14. -/
def Tables.layout (T : Tables) (mode : Nat) : List (HdrField × Nat) := T.layout6.getD (mode - 1) []

/-- Digit of pixel `i` in a shape row: the leftmost of its 16 hexadecimal digits is pixel 0. The spec gives pixels 0 to
15 only (R151): above them the model answers pixel 15's digit (DESIGN CHOICE, log entry 10). -/
def shapeDigit (row i : Nat) : Nat := (row >>> (4 * (15 - i))) % 16

/-- `REGION(P, shape, i)` (R151). -/
def Tables.region (T : Tables) (P shape i : Nat) : Nat :=
  if P = 0 then 0
  else if P = 1 then shapeDigit (T.part2.getD shape 0) i
  else if P = 2 then shapeDigit (T.part3.getD shape 0) i
  else 0

/-- `FIXUP(P, shape, r)` (R154), as its pseudocode reads: with `P = 1` any region but 0 has `FIX2`. -/
def Tables.fixup (T : Tables) (P shape r : Nat) : Nat :=
  if r = 0 then 0
  else if P = 1 then T.fix2.getD shape 0
  else if P = 2 ∧ r = 1 then T.fix3a.getD shape 0
  else if P = 2 ∧ r = 2 then T.fix3b.getD shape 0
  else 0

/-- `ISFIX(P, shape, i)` (R154): pixel `i` is the fixup pixel of one of the regions `0..P`. -/
def Tables.isFix (T : Tables) (P shape i : Nat) : Bool :=
  (List.range (P + 1)).any fun k => T.fixup P shape k == i

/-- `W(ip)[j]` (R201): the weight of palette index `j` at index precision `ip`. -/
def Tables.weight (T : Tables) (ip j : Nat) : Nat :=
  if ip = 2 then T.w2.getD j 0
  else if ip = 3 then T.w3.getD j 0
  else if ip = 4 then T.w4.getD j 0
  else 0

/-- Width of the entry of pixel `i` in an index array of `ip`-bit entries (R84, R97): a fixup pixel's entry
lacks its most significant bit. -/
def Tables.idxWidth (T : Tables) (P shape ip i : Nat) : Nat := if T.isFix P shape i then ip - 1 else ip

/-! ## What a descriptor says of a mode's fields -/

/-- Number of endpoints, `2(P+1)` (R14). -/
def Desc7.ne (d : Desc7) : Nat := 2 * (d.P + 1)

/-- Number of channels stored per endpoint: alpha only where `AB > 0` (R83, R175). -/
def Desc7.nch (d : Desc7) : Nat := if 0 < d.AB then 4 else 3

/-- Width of the stored field of channel `c` of endpoint `e` (R83, R86); 0 where the mode stores none. -/
def Desc7.epWidth (d : Desc7) (e c : Nat) : Nat := if e < d.ne then (if c < 3 then d.CB else d.AB) else 0

/-- The endpoint fields in block order (R83, R234): all red, all green, all blue, then all alpha. -/
def Desc7.epOrder (d : Desc7) : List (Nat × Nat) :=
  (List.range d.nch).flatMap fun c => (List.range d.ne).map fun e => (e, c)

/-- The p-bit of endpoint `e` (R87). -/
def Desc7.pbOf (d : Desc7) (e : Nat) : Nat := (e * d.NP) / d.ne

/-- Precision of channel `c` of an endpoint after the p-bit (R174, R235). -/
def Desc7.prec (d : Desc7) (c : Nat) : Nat :=
  (if c < 3 then d.CB else d.AB) + (if 0 < d.NP then 1 else 0)

/-- Width of the array-2 entry of pixel `i` (R84): array 2's fixup pixel is pixel 0. -/
def Desc7.idx2Width (d : Desc7) (i : Nat) : Nat := if i = 0 then d.IP2 - 1 else d.IP2

/-- Colour index precision (R215, R238). -/
def Desc7.cp (d : Desc7) (idxm : Nat) : Nat := if 0 < d.IP2 ∧ idxm = 1 then d.IP2 else d.IP

/-- Alpha index precision (R215, R238). -/
def Desc7.ap (d : Desc7) (idxm : Nat) : Nat := if 0 < d.IP2 ∧ idxm ≠ 1 then d.IP2 else d.IP

/-- Widths of the index entries in block order (R84, R237): array 1, then array 2 if the mode has one. -/
def Tables.idxWidths7 (T : Tables) (d : Desc7) (shape : Nat) : List Nat :=
  (List.range 16).map (T.idxWidth d.P shape d.IP) ++
  (if 0 < d.IP2 then (List.range 16).map d.idx2Width else [])

/-- Widths of the endpoint fields and the p-bits in block order (R83, R234). -/
def Desc7.bodyWidths (d : Desc7) : List Nat :=
  d.epOrder.map (fun p => d.epWidth p.1 p.2) ++ List.replicate d.NP 1

/-- Number of endpoints, `2(P+1)` (R14). -/
def Desc6.ne (d : Desc6) : Nat := 2 * (d.P + 1)

/-- Delta width of channel `c` (R100). -/
def Desc6.dW (d : Desc6) (c : Nat) : Nat := if c = 0 then d.dR else if c = 1 then d.dG else d.dB

/-- Width of the stored field of channel `c` of endpoint `k` (R99, R100); 0 where the mode has none. -/
def Desc6.epWidth (d : Desc6) (k c : Nat) : Nat :=
  if k = 0 then d.EP else if k < d.ne then d.dW c else 0

/-- Header length the partition count implies (R97, R252). -/
def Desc6.hdr (d : Desc6) : Nat := if d.P = 1 then 82 else 65

/-- Widths of the index entries (R97, R256). -/
def Tables.idxWidths6 (T : Tables) (d : Desc6) (shape : Nat) : List Nat :=
  (List.range 16).map (T.idxWidth d.P shape d.IP)

/-- Width of the shape field (R98, R115): 5 bits in the two-region modes, absent in the one-region modes. -/
def Desc6.shapeBits (d : Desc6) : Nat := if d.P = 1 then 5 else 0

end Sys2Proof
end

