-- ==== Sys2Proof/Syntax.lean ====
section
/-! DEFINITION. The instructions of BC67: one constructor per row of spec/opcode_table.json.

R120 and the table of 00_scope.md section 4 give the block two kinds of instruction. A COMMAND of the command port
(`DEC`, `ENCQ`, `ENCE` in a format, and the two reserved forms) carries the operands of R32. An ENCODED BLOCK, the
128-bit word the decoder interprets, is one of eight BC7 modes or fourteen BC6H modes, or has a reserved selector;
it carries the mode's fields as stored. -/

namespace Sys2Proof

/-- The stored fields of a BC7 block (R83). The arrays have the size of the largest mode; what a mode lacks is 0
(WellFormed.lean). -/
structure Bc7Fields where
  shape : Nat
  rot : Nat
  idxm : Nat
  /-- channel `c` (R=0, G=1, B=2, A=3) of endpoint `e`, without the p-bit -/
  ep : Vector (Vector Nat 4) 6
  pb : Vector Nat 6
  ix1 : Vector Nat 16
  ix2 : Vector Nat 16
deriving DecidableEq, Repr

/-- The stored fields of a BC6H block (R97, R98): `ep` before sign extension and inverse transform. -/
structure Bc6hFields where
  shape : Nat
  /-- channel `c` (R=0, G=1, B=2) of endpoint `k` -/
  ep : Vector (Vector Nat 3) 4
  ix : Vector Nat 16
deriving DecidableEq, Repr

/-- The candidate of an `ENC*` command with its tile: the `c_*` fields of the command word (R32), each of the
width given there; `ep` is signed. -/
structure Candidate where
  mode : BitVec 4
  shape : BitVec 6
  rot : BitVec 2
  idxm : BitVec 1
  ep : Vector (Vector (BitVec 17) 4) 6
  pb : Vector (BitVec 1) 6
  tile : Tile
deriving DecidableEq, Repr

/-- The command word `CMD` (R32), a record (decision D2). -/
structure Cmd where
  op : BitVec 2
  fmt : BitVec 2
  blk : Block
  cand : Candidate
deriving DecidableEq, Repr

/-- The rows of the opcode table. -/
inductive Instr where
  | bc7M0 (f : Bc7Fields)
  | bc7M1 (f : Bc7Fields)
  | bc7M2 (f : Bc7Fields)
  | bc7M3 (f : Bc7Fields)
  | bc7M4 (f : Bc7Fields)
  | bc7M5 (f : Bc7Fields)
  | bc7M6 (f : Bc7Fields)
  | bc7M7 (f : Bc7Fields)
  /-- `blk[0] = 0x00` (R116); `rest` is block bits 8..127 -/
  | bc7Reserved (rest : BitVec 120)
  | bc6hM1 (f : Bc6hFields)
  | bc6hM2 (f : Bc6hFields)
  | bc6hM3 (f : Bc6hFields)
  | bc6hM4 (f : Bc6hFields)
  | bc6hM5 (f : Bc6hFields)
  | bc6hM6 (f : Bc6hFields)
  | bc6hM7 (f : Bc6hFields)
  | bc6hM8 (f : Bc6hFields)
  | bc6hM9 (f : Bc6hFields)
  | bc6hM10 (f : Bc6hFields)
  | bc6hM11 (f : Bc6hFields)
  | bc6hM12 (f : Bc6hFields)
  | bc6hM13 (f : Bc6hFields)
  | bc6hM14 (f : Bc6hFields)
  /-- selector `0x13` (R116); `rest` is block bits 5..127 -/
  | bc6hReserved13 (rest : BitVec 123)
  | bc6hReserved17 (rest : BitVec 123)
  | bc6hReserved1B (rest : BitVec 123)
  | bc6hReserved1F (rest : BitVec 123)
  | decBc7 (blk : Block)
  | decBc6hUnsigned (blk : Block)
  | decBc6hSigned (blk : Block)
  | encqBc7 (c : Candidate)
  | encqBc6hUnsigned (c : Candidate)
  | encqBc6hSigned (c : Candidate)
  | enceBc7 (c : Candidate)
  | enceBc6hUnsigned (c : Candidate)
  | enceBc6hSigned (c : Candidate)
  /-- `op = 3` with any format (R120) -/
  | cmdReservedOp (fmt : BitVec 2)
  /-- `fmt = 3` with an `op` that is not reserved (R121) -/
  | cmdReservedFmt (op : BitVec 2)
deriving DecidableEq, Repr

/-- The instruction of BC7 mode `m` (0..7) with fields `f`. -/
def Instr.bc7 (m : Fin 8) (f : Bc7Fields) : Instr :=
  match m with
  | 0 => .bc7M0 f
  | 1 => .bc7M1 f
  | 2 => .bc7M2 f
  | 3 => .bc7M3 f
  | 4 => .bc7M4 f
  | 5 => .bc7M5 f
  | 6 => .bc7M6 f
  | 7 => .bc7M7 f

/-- The instruction of BC6H mode `k + 1` (1..14) with fields `f`. -/
def Instr.bc6h (k : Fin 14) (f : Bc6hFields) : Instr :=
  match k with
  | 0 => .bc6hM1 f
  | 1 => .bc6hM2 f
  | 2 => .bc6hM3 f
  | 3 => .bc6hM4 f
  | 4 => .bc6hM5 f
  | 5 => .bc6hM6 f
  | 6 => .bc6hM7 f
  | 7 => .bc6hM8 f
  | 8 => .bc6hM9 f
  | 9 => .bc6hM10 f
  | 10 => .bc6hM11 f
  | 11 => .bc6hM12 f
  | 12 => .bc6hM13 f
  | 13 => .bc6hM14 f

end Sys2Proof
end

