-- ==== Sys2Proof/Decode.lean ====
section
/-! DEFINITION. From words to instructions and back.

An instruction word is a BC7 block, a BC6H block (which family is the `fmt` operand of the command, not a bit of the
block: R80), or a command word (R32). `decode` is total: the reserved encodings of R116, R120 and R121 are rows of the
opcode table and decode to constructors of their own. `encode` is written from the same tables. -/

namespace Sys2Proof

/-- An instruction's word. -/
inductive Code where
  | bc7 (B : Block)
  | bc6h (B : Block)
  | cmd (c : Cmd)
deriving DecidableEq, Repr

/-! ## BC7 blocks (R82 to R95) -/

/-- The unary selector (R82, R231): the lowest set bit among block bits 0..7. -/
def selector7 (B : Block) : Option Nat := (List.range 8).find? fun m => B.getLsbD m

/-- First block bit after the shape, rotation and index-mode fields (R83). -/
def bodyStart7 (d : Desc7) (m : Nat) : Nat := m + 1 + d.PB + d.RB + d.IB

/-- First block bit of index array 1 (R85). -/
def indexStart7 (d : Desc7) (m : Nat) : Nat := bodyStart7 d m + totalWidth d.bodyWidths

/-- The stored fields of the BC7 mode-`m` block `B` (R83, R84). -/
def parse7 (T : Tables) (m : Nat) (B : Block) : Bc7Fields :=
  let d := T.bc7 m
  let h := readAll B [d.PB, d.RB, d.IB] (m + 1)
  let v := readAll B d.bodyWidths (bodyStart7 d m)
  let x := readAll B (T.idxWidths7 d (h.getD 0 0)) (indexStart7 d m)
  { shape := h.getD 0 0
    rot := h.getD 1 0
    idxm := h.getD 2 0
    ep := grid 6 4 fun e c => if e < d.ne ∧ c < d.nch then v.getD (c * d.ne + e) 0 else 0
    pb := tab 6 fun k => if k < d.NP then v.getD (d.nch * d.ne + k) 0 else 0
    ix1 := tab 16 fun i => x.getD i 0
    ix2 := tab 16 fun i => if 0 < d.IP2 then x.getD (16 + i) 0 else 0 }

/-- The fields of BC7 mode `m` in block order, each a width and a value (R83, R84, R284). -/
def Bc7Fields.fields (T : Tables) (m : Nat) (f : Bc7Fields) : List (Nat × Nat) :=
  let d := T.bc7 m
  [(m + 1, 2 ^ m), (d.PB, f.shape), (d.RB, f.rot), (d.IB, f.idxm)] ++
  d.epOrder.map (fun p => (d.epWidth p.1 p.2, cell f.ep p.1 p.2 0)) ++
  (List.range d.NP).map (fun k => (1, rd f.pb k 0)) ++
  (List.range 16).map (fun i => (T.idxWidth d.P f.shape d.IP i, rd f.ix1 i 0)) ++
  (if 0 < d.IP2 then (List.range 16).map (fun i => (d.idx2Width i, rd f.ix2 i 0)) else [])

/-- The block of BC7 mode `m` with fields `f`. -/
def encode7 (m : Nat) (f : Bc7Fields) : Block := writeAll (f.fields tables m) 0 0

/-! ## BC6H blocks (R96 to R114) -/

/-- The mode selector (R96, R251, R252): 2 bits for modes 1 and 2, else the row whose `sel` is the 5-bit value. -/
def selector6 (T : Tables) (B : Block) : Option Nat :=
  let m5 := rdbits B 0 5
  if m5 % 4 = 0 then some 1
  else if m5 % 4 = 1 then some 2
  else (T.desc6.findIdx? fun d => d.sel == m5).map (· + 1)

/-- Field assembly (R99, R253): OR each header bit that is 1 into the field the layout names at its position. -/
def assemble (L : List (HdrField × Nat)) (bits : List Nat) (f : HdrField) : Nat :=
  (L.zip bits).foldl (fun v p => if p.1.1 = f ∧ p.2 = 1 then v ||| (1 <<< p.1.2) else v) 0

/-- The stored fields of the BC6H block `B` in `mode` (R97 to R99). -/
def parse6 (T : Tables) (mode : Nat) (B : Block) : Bc6hFields :=
  let d := T.bc6h mode
  let L := (T.layout mode).drop d.selw
  let v := readAll B (List.replicate L.length 1) d.selw
  let shape := assemble L v .d
  let x := readAll B (T.idxWidths6 d shape) d.hdr
  { shape := shape
    ep := grid 4 3 fun k c => assemble L v (.ep k c)
    ix := tab 16 fun i => x.getD i 0 }

/-- The value of a header field (R285: `m` is the selector, `d` the shape). -/
def Bc6hFields.hdrValue (d : Desc6) (f : Bc6hFields) : HdrField → Nat
  | .m => d.sel
  | .d => f.shape
  | .ep k c => cell f.ep k c 0

/-- The fields of a BC6H block in block order (R285): header positions `0..hdr-1` one bit at a time through the layout,
then the indices. Where a table's layout is shorter than the header, R285 looks past its end and gives no bit: the model
writes the bits the layout has and goes on with the indices (DESIGN CHOICE, log entry 13), so that the block ends short and
`E6` raises `CursorRange` (R287). The supplied layouts are as long as their headers. -/
def Bc6hFields.fields (T : Tables) (mode : Nat) (f : Bc6hFields) : List (Nat × Nat) :=
  let d := T.bc6h mode
  ((T.layout mode).take d.hdr).map (fun p => (1, (f.hdrValue d p.1 >>> p.2) % 2)) ++
  (List.range 16).map (fun i => (T.idxWidth d.P f.shape d.IP i, rd f.ix i 0))

/-- The block of BC6H mode `mode` with fields `f`. -/
def encode6 (mode : Nat) (f : Bc6hFields) : Block := writeAll (f.fields tables mode) 0 0

/-! ## The decoder -/

/-- A BC7 block (R81, R82, R116). -/
def decodeBc7Block (B : Block) : Instr :=
  match selector7 B with
  | some m => .bc7 (Fin.ofNat 8 m) (parse7 tables m B)
  | none => .bc7Reserved (B.extractLsb' 8 120)

/-- A BC6H block (R81, R96, R116): the four selectors no mode has are reserved. -/
def decodeBc6hBlock (B : Block) : Instr :=
  match selector6 tables B with
  | some mode => .bc6h (Fin.ofNat 14 (mode - 1)) (parse6 tables mode B)
  | none =>
    if rdbits B 0 5 = 0x13 then .bc6hReserved13 (B.extractLsb' 5 123)
    else if rdbits B 0 5 = 0x17 then .bc6hReserved17 (B.extractLsb' 5 123)
    else if rdbits B 0 5 = 0x1B then .bc6hReserved1B (B.extractLsb' 5 123)
    else .bc6hReserved1F (B.extractLsb' 5 123)

/-- A command word (R32, R120, R121). `op = 3` with `fmt = 3` matches both reserved rows, whose effect is the same;
it is read as `CMD.RESERVED_OP` (log entry 6). -/
def decodeCmd (c : Cmd) : Instr :=
  if c.op = 3 then .cmdReservedOp c.fmt
  else if c.fmt = 3 then .cmdReservedFmt c.op
  else if c.op = 0 then
    if c.fmt = 0 then .decBc7 c.blk else if c.fmt = 1 then .decBc6hUnsigned c.blk else .decBc6hSigned c.blk
  else if c.op = 1 then
    if c.fmt = 0 then .encqBc7 c.cand else if c.fmt = 1 then .encqBc6hUnsigned c.cand else .encqBc6hSigned c.cand
  else
    if c.fmt = 0 then .enceBc7 c.cand else if c.fmt = 1 then .enceBc6hUnsigned c.cand else .enceBc6hSigned c.cand

/-- Every word is an instruction. -/
def decode : Code → Instr
  | .bc7 B => decodeBc7Block B
  | .bc6h B => decodeBc6hBlock B
  | .cmd c => decodeCmd c

/-- The block the decoder has latched, under the latched format (R65, R80); no instruction under the reserved
format, which no accepted `DEC` has (R309). -/
def decodeLatched (fmt : BitVec 2) (B : Block) : Option Instr :=
  if fmt = 0 then some (decode (.bc7 B)) else if fmt = 3 then none else some (decode (.bc6h B))

/-! ## The encoder -/

/-- The candidate of a command that has none: the fields a `DEC` ignores (R32). -/
def Candidate.zero : Candidate where
  mode := 0
  shape := 0
  rot := 0
  idxm := 0
  ep := grid 6 4 fun _ _ => 0
  pb := tab 6 fun _ => 0
  tile := tab 16 fun _ => 0

/-- A `DEC` command word: the candidate fields are ignored. -/
def Cmd.dec (fmt : BitVec 2) (B : Block) : Cmd := ⟨0, fmt, B, Candidate.zero⟩

/-- An `ENC*` command word: `blk` is ignored. -/
def Cmd.enc (op fmt : BitVec 2) (c : Candidate) : Cmd := ⟨op, fmt, 0, c⟩

/-- The word of an instruction. -/
def encode : Instr → Code
  | .bc7M0 f => .bc7 (encode7 0 f)
  | .bc7M1 f => .bc7 (encode7 1 f)
  | .bc7M2 f => .bc7 (encode7 2 f)
  | .bc7M3 f => .bc7 (encode7 3 f)
  | .bc7M4 f => .bc7 (encode7 4 f)
  | .bc7M5 f => .bc7 (encode7 5 f)
  | .bc7M6 f => .bc7 (encode7 6 f)
  | .bc7M7 f => .bc7 (encode7 7 f)
  | .bc7Reserved rest => .bc7 (rest ++ 0x00#8)
  | .bc6hM1 f => .bc6h (encode6 1 f)
  | .bc6hM2 f => .bc6h (encode6 2 f)
  | .bc6hM3 f => .bc6h (encode6 3 f)
  | .bc6hM4 f => .bc6h (encode6 4 f)
  | .bc6hM5 f => .bc6h (encode6 5 f)
  | .bc6hM6 f => .bc6h (encode6 6 f)
  | .bc6hM7 f => .bc6h (encode6 7 f)
  | .bc6hM8 f => .bc6h (encode6 8 f)
  | .bc6hM9 f => .bc6h (encode6 9 f)
  | .bc6hM10 f => .bc6h (encode6 10 f)
  | .bc6hM11 f => .bc6h (encode6 11 f)
  | .bc6hM12 f => .bc6h (encode6 12 f)
  | .bc6hM13 f => .bc6h (encode6 13 f)
  | .bc6hM14 f => .bc6h (encode6 14 f)
  | .bc6hReserved13 rest => .bc6h (rest ++ 0x13#5)
  | .bc6hReserved17 rest => .bc6h (rest ++ 0x17#5)
  | .bc6hReserved1B rest => .bc6h (rest ++ 0x1B#5)
  | .bc6hReserved1F rest => .bc6h (rest ++ 0x1F#5)
  | .decBc7 B => .cmd (.dec 0 B)
  | .decBc6hUnsigned B => .cmd (.dec 1 B)
  | .decBc6hSigned B => .cmd (.dec 2 B)
  | .encqBc7 c => .cmd (.enc 1 0 c)
  | .encqBc6hUnsigned c => .cmd (.enc 1 1 c)
  | .encqBc6hSigned c => .cmd (.enc 1 2 c)
  | .enceBc7 c => .cmd (.enc 2 0 c)
  | .enceBc6hUnsigned c => .cmd (.enc 2 1 c)
  | .enceBc6hSigned c => .cmd (.enc 2 2 c)
  | .cmdReservedOp fmt => .cmd ⟨3, fmt, 0, Candidate.zero⟩
  | .cmdReservedFmt op => .cmd ⟨op, 3, 0, Candidate.zero⟩

/-! ## Words of the opcode table -/

/-- The block `w`, its bits numbered as in the table (block bit `n` is bit `n`), under the family whose row it is:
one whose first byte is zero or a single bit is a BC7 selector word, any other a BC6H one. The family is not in the
block (R80), so a few words stand for a row of each (log entry 7). -/
def tableBlock (w : Nat) : Code :=
  if w % 256 = 0 ∨ (List.range 8).any (fun m => w % 256 == 2 ^ m) then .bc7 (BitVec.ofNat 128 w)
  else .bc6h (BitVec.ofNat 128 w)

/-- The word of a table row from its bits. A command row has the 4-bit key `fmt << 2 | op`, its operands zero; a
word of one byte is read as a command key where the table has that key, else as the first byte of a block
(log entry 7). -/
def tableCode (nbits w : Nat) : Code :=
  if nbits ≤ 8 ∧ w < 16 ∧ w ≠ 0x7 ∧ w ≠ 0xB ∧ w ≠ 0xE ∧ w ≠ 0xF then
    .cmd ⟨BitVec.ofNat 2 (w % 4), BitVec.ofNat 2 (w / 4), 0, Candidate.zero⟩
  else tableBlock w

/-- The instruction the decoder reads from a table word. -/
def decodeTableWord (nbits w : Nat) : Option Instr := some (decode (tableCode nbits w))

end Sys2Proof
end

