-- ==== Sys2Proof/Machine/State.lean ====
section
/-! DEFINITION. The state of BC67 (10_state.md), its phases and status codes, the port inputs the step reads, the two
reasons a step can stop, and the state after reset (R36, R330).

R20 gives the block working state (R22, R26) and handshake state (R33, R34). Its constant state, the table ROMs, is
`Sys2Proof.tables`: no command writes it (R60). Numbers that the spec treats as mathematical integers (R12) are `Nat`
or `Int`; that each stays in the range of its register is `State.InRange` in Safety.lean. -/

namespace Sys2Proof.Machine

/-- The phase register `ph` (R28). -/
inductive Phase where
  | idle
  | d0 | d1 | d2 | d3 | d4 | d5 | d6 | d7
  | e0 | e1 | e2 | e3 | e4 | e5 | e6 | e7
  | fault
deriving DecidableEq, Repr

/-- The status codes of R301 that have a name; codes 9 to 15 are never produced. -/
inductive Status where
  | ok
  | modeSelector
  | headerCount
  | indexOverrun
  | cursorRange
  /-- reserved for the host (R306): no phase raises it -/
  | noCandidate
  | noFit
  | badCandidate
  | badCommand
deriving DecidableEq, Repr

/-- The response word `RSP` (R34). A field outside its "valid when" is absent (decision D6). -/
structure Response where
  status : Status
  pix : Option Tile
  blk : Option Block
  errtot : Option Nat
  err : Option (Vector Nat 3)
deriving DecidableEq, Repr

/-- What the host drives on the ports in one step (R340): `rst`, `cmd_valid` with `cmd`, and `rsp_ready`. -/
structure PortIn where
  rst : Bool
  cmd : Option Cmd
  rspReady : Bool
deriving DecidableEq, Repr

/-- The ports with nothing driven. -/
def PortIn.quiet : PortIn := ⟨false, none, false⟩

/-- The endpoint registers `ep[e][c]` (R22). -/
abbrev EpFile := Vector (Vector Int 4) 6

/-- The machine. -/
structure State where
  /-- `op`, 2 bits, latched from the command -/
  op : BitVec 2
  /-- `fmt`, 2 bits, latched from the command -/
  fmt : BitVec 2
  /-- the block buffer `blk[0..15]` -/
  blk : Block
  /-- the tile buffer `tile[0..15]` -/
  tile : Tile
  /-- the pixel buffer `pix[0..15]` -/
  pix : Tile
  mode : Nat
  shape : Nat
  rot : Nat
  idxm : Nat
  ep : EpFile
  pb : Vector Nat 6
  ix1 : Vector Nat 16
  ix2 : Vector Nat 16
  err : Vector Nat 3
  errtot : Nat
  status : Status
  /-- the bit cursor (R26, R27) -/
  cur : Nat
  /-- the phase (R26, R28) -/
  ph : Phase
  /-- `busy` (R33) -/
  busy : Bool
  /-- the response holding register (R33, R34); `rsp_valid` is that it holds one -/
  rsp : Option Response
  /-- the model's own: what the host drives in the steps to come, the next step first (log entry 3) -/
  inputs : List PortIn
deriving DecidableEq, Repr

/-- `rsp_valid` (R33). -/
def State.rspValid (s : State) : Bool := s.rsp.isSome

/-- `cmd_ready` (R340). -/
def State.cmdReady (s : State) : Bool := !s.busy

/-- Why a step stops. No behaviour of BC67 is `stuck` (93_implementation_defined.md): there is one reason, for
states no run reaches. -/
inductive Fault where
  /-- Raised by `step` alone, in a busy state that holds no response and in which no `DEC` waits for the decoder
  (its phase is not `D0`, or its format is the reserved one). No step leaves such a state, so only one written by
  hand has it. Safe: the model stops where it has nothing to claim. -/
  | outOfPhase
deriving DecidableEq, Repr

/-- Why an instruction has no meaning. -/
inductive Refusal where
  /-- For an instruction of the opcode table whose meaning is not written. No instruction is left so. Safe. -/
  | notModelled (mnemonic : String)
deriving DecidableEq, Repr

/-- The state after reset (R36, R330): `busy = 0`, `rsp_valid = 0`, `ph = IDLE`. Every other register is unspecified
there and is zero here (DESIGN CHOICE, log entry 2). -/
def State.reset : State where
  op := 0
  fmt := 0
  blk := 0
  tile := tab 16 fun _ => 0
  pix := tab 16 fun _ => 0
  mode := 0
  shape := 0
  rot := 0
  idxm := 0
  ep := grid 6 4 fun _ _ => 0
  pb := tab 6 fun _ => 0
  ix1 := tab 16 fun _ => 0
  ix2 := tab 16 fun _ => 0
  err := tab 3 fun _ => 0
  errtot := 0
  status := .ok
  cur := 0
  ph := .idle
  busy := false
  rsp := none
  inputs := []

end Sys2Proof.Machine
end

