-- ==== Sys2Proof/Machine/Flags.lean ====
section
/-! DEFINITION. BC67 has no condition codes and no arithmetic flags; its one status is the 4-bit `status` register,
written once per operation and returned in the response (R29). Here: its codes, and the response a status makes. -/

namespace Sys2Proof.Machine

/-- The 4-bit code of a status (R301). -/
def Status.code : Status → BitVec 4
  | .ok => 0
  | .modeSelector => 1
  | .headerCount => 2
  | .indexOverrun => 3
  | .cursorRange => 4
  | .noCandidate => 5
  | .noFit => 6
  | .badCandidate => 7
  | .badCommand => 8

/-- A response that carries a status and nothing else (R312). -/
def Response.statusOnly (c : Status) : Response := ⟨c, none, none, none, none⟩

/-- The response of a completed `DEC` (R34). -/
def Response.decoded (pix : Tile) : Response := ⟨.ok, some pix, none, none, none⟩

/-- The response of a completed `ENC*` (R34, R286). -/
def Response.encoded (blk : Block) (errtot : Nat) (err : Vector Nat 3) : Response :=
  ⟨.ok, none, some blk, some errtot, some err⟩

end Sys2Proof.Machine
end

