-- ==== Sys2Proof/Machine/Ops.lean ====
section
/-! DEFINITION. The named operations of the machine: accepting a command (R33), the checked bit cursor (R144, R147),
raising a fault or a refusal (R312: BC67's whole exception entry), running phases in order, responding, giving up a
response (BC67's return from a fault as from a success, R314), and reset by the `rst` port. -/

namespace Sys2Proof.Machine

/-- Endpoint register `ep[e][c]`. -/
def epAt (v : EpFile) (e c : Nat) : Int := cell v e c 0

/-! ## Exception entry and the order of phases -/

/-- A raise (R312), all at once: `status` is the code, the phase is `FAULT`, the response carries the status alone;
`cur` and every working register keep their values. -/
def State.raise (s : State) (c : Status) : State :=
  { s with status := c, ph := .fault, rsp := some (Response.statusOnly c) }

/-- Runs phases in the order written (R28); a raise ends the operation (R13, R312). -/
def runPhases : List (State → State) → State → State
  | [], s => s
  | f :: fs, s => if (f s).ph = .fault then f s else runPhases fs (f s)

/-! ## The checked bit cursor -/

/-- `GET` of fields of the given widths, in order (R147): the values read, and the state after. An access beyond
block bit 127 is not performed and raises `c`, the cursor staying at the field that could not be read (R144). -/
def State.getAll (c : Status) : List Nat → State → List Nat × State
  | [], s => ([], s)
  | w :: ws, s =>
    if 128 < s.cur + w then ([], s.raise c)
    else
      let t := getAll c ws { s with cur := s.cur + w }
      (rdbits s.blk s.cur w :: t.1, t.2)

/-- `PUT` of fields, each a width and a value, in order (R147); an access beyond block bit 127 is not performed and
raises `CursorRange` (R144 (b)). -/
def State.putAll : List (Nat × Nat) → State → State
  | [], s => s
  | (w, v) :: fs, s =>
    if 128 < s.cur + w then s.raise .cursorRange
    else putAll fs { s with blk := wrbits s.blk s.cur w v, cur := s.cur + w }

/-! ## Accepting a command -/

/-- What every acceptance does (R22 "init", R27, R29, R33). -/
def State.accept (s : State) (op fmt : BitVec 2) : State :=
  { s with
    op := op, fmt := fmt, shape := 0, rot := 0, idxm := 0
    ep := grid 6 4 fun _ _ => 0, pb := tab 6 fun _ => 0, err := tab 3 fun _ => 0, errtot := 0
    status := .ok, cur := 0, busy := true, rsp := none }

/-- Acceptance of a `DEC`: the block is latched and the decoder starts (R22, R33, R63). -/
def State.acceptDec (s : State) (fmt : BitVec 2) (B : Block) : State :=
  { s.accept 0 fmt with blk := B, ph := .d0 }

/-- Acceptance of an `ENC*`: the tile and the candidate's mode are latched, the block buffer is all zero (R22, R33). -/
def State.acceptEnc (s : State) (op fmt : BitVec 2) (c : Candidate) : State :=
  { s.accept op fmt with blk := 0, tile := c.tile, mode := c.mode.toNat, ph := .e0 }

/-- A command with a reserved `op` or `fmt`: accepted and refused before any other field is looked at (R309). -/
def State.acceptBad (s : State) (op fmt : BitVec 2) : State := (s.accept op fmt).raise .badCommand

/-! ## Responses -/

/-- `D7 Output16Pixels` (R241, R259). -/
def State.respondDec (s : State) : State :=
  { s with status := .ok, ph := .d7, rsp := some (Response.decoded s.pix) }

/-- `E7 Respond` (R286). -/
def State.respondEnc (s : State) : State :=
  { s with status := .ok, ph := .e7, rsp := some (Response.encoded s.blk s.errtot s.err) }

/-- The host takes the response (R33, R314): nothing is restored, the block is idle again. -/
def State.takeResponse (s : State) : State := { s with rsp := none, busy := false, ph := .idle }

/-- Reset by the port (R330): an operation in progress is abandoned without a response. The host's inputs to come
are the host's. -/
def State.resetPort (s : State) : State := { State.reset with inputs := s.inputs }

end Sys2Proof.Machine
end

