-- ==== Sys2Proof/Machine/Operands.lean ====
section
/-! DEFINITION. The operand forms of BC67: the packing of samples on the ports (R24, R25), the signedness of the
format (R170), the rotation swap (R240, R276), and the fields of a candidate (R273, R274). -/

namespace Sys2Proof.Machine

/-- `sg` (R170): the format is `Bc6hSigned`. -/
def sgOf (fmt : BitVec 2) : Bool := fmt == 2

/-- Channel `c` (R=0, G=1, B=2, A=3) of a BC7 sample: an unsigned byte (R24). Bits 63:32 are ignored. -/
def chan7 (x : Lane) (c : Nat) : Int := (x.extractLsb' (8 * c) 8).toNat

/-- A BC7 sample from its channels; bits 63:32 are zero (R24). -/
def pack7 (v : Nat → Int) : Lane :=
  0#32 ++ (BitVec.ofInt 8 (v 3) ++ BitVec.ofInt 8 (v 2) ++ BitVec.ofInt 8 (v 1) ++ BitVec.ofInt 8 (v 0))

/-- Channel `c` (R=0, G=1, B=2) of a BC6H sample: a 16-bit integer, two's complement in the signed format (R25).
Bits 63:48 are ignored. -/
def chan6 (sg : Bool) (x : Lane) (c : Nat) : Int :=
  if sg then (x.extractLsb' (16 * c) 16).toInt else (x.extractLsb' (16 * c) 16).toNat

/-- A BC6H sample from its channels; bits 63:48 are zero (R25). -/
def pack6 (v : Nat → Int) : Lane :=
  0#16 ++ (BitVec.ofInt 16 (v 2) ++ BitVec.ofInt 16 (v 1) ++ BitVec.ofInt 16 (v 0))

/-- The channel that rotation `rot` exchanges with A (R240, R276); A itself for no rotation. -/
def rotChan (rot : Nat) : Nat := if rot = 1 then 0 else if rot = 2 then 1 else if rot = 3 then 2 else 3

/-- The rotation swap of R240 and R276 on a sample's channels: exchange A with the channel `rot` names. -/
def rotate (rot : Nat) (v : Nat → Int) : Nat → Int :=
  fun c => if c = 3 then v (rotChan rot) else if c = rotChan rot then v 3 else v c

/-- Candidate endpoint field `c_ep[e][c]`, signed (R32). -/
def candEp (c : Candidate) (e ch : Nat) : Int := (cell c.ep e ch 0).toInt

/-- Candidate p-bit `c_pb[k]`. -/
def candPb (c : Candidate) (k : Nat) : Nat := (rd c.pb k 0).toNat

end Sys2Proof.Machine
end

