-- ==== Sys2Proof/Machine/Quantizer.lean ====
section
/-! DEFINITION. Quantizer, unquantizer, sign extension and endpoint transform (42_quantizer.md). Pure functions on
mathematical integers (R12, R170); a division by a power of two is the spec's `>>`, `floor(x / 2^n)` (R12). -/

namespace Sys2Proof.Machine

/-! ## BC7 -/

/-- `Q7(v, prec)` (R171, R172). -/
def q7 (v prec : Nat) : Nat :=
  (min 255 (v + if prec ≤ 7 then 1 <<< (7 - prec) else 0)) >>> (8 - prec)

/-- `UQ7(q, prec)` (R173). -/
def uq7 (q prec : Nat) : Nat := (q <<< (8 - prec)) ||| ((q <<< (8 - prec)) >>> prec)

/-! ## BC6H -/

/-- `Q6(v, prec, sg)` (R181, R182). -/
def q6 (fmax : Nat) (v : Int) (prec : Nat) (sg : Bool) : Int :=
  if sg = false then
    if 15 ≤ prec then v else (v * 2 ^ prec) / (fmax + 1)
  else
    let m : Int := v.natAbs
    let q : Int := if 16 ≤ prec then m else (m * 2 ^ (prec - 1)) / (fmax + 1)
    if v < 0 then -q else q

/-- `UQ6(q, prec, sg)` (R182, R183). -/
def uq6 (q : Int) (prec : Nat) (sg : Bool) : Int :=
  if sg = false then
    if 15 ≤ prec then q
    else if q = 0 then 0
    else if q = 2 ^ prec - 1 then 0xFFFF
    else (q * 2 ^ 16 + 0x8000) / 2 ^ prec
  else
    if 16 ≤ prec then q
    else
      let m : Int := q.natAbs
      let u : Int :=
        if m = 0 then 0
        else if 2 ^ (prec - 1) - 1 ≤ m then 0x7FFF
        else (m * 2 ^ 15 + 0x4000) / 2 ^ (prec - 1)
      if q < 0 then -u else u

/-- `FIN6(c, sg)` (R184). -/
def fin6 (c : Int) (sg : Bool) : Int :=
  if sg = false then (c * 31) / 2 ^ 6
  else if c < 0 then -((-c * 31) / 2 ^ 5)
  else (c * 31) / 2 ^ 5

/-! ## Sign extension, fit, transform -/

/-- `SEXT(v, n)` (R187), the `sext_n` of R12: the low `n` bits of `v` as an `n`-bit two's-complement number. -/
def sext (v : Int) (n : Nat) : Int :=
  if 2 ^ (n - 1) ≤ v % 2 ^ n then v % 2 ^ n - 2 ^ n else v % 2 ^ n

/-- `FITS(x, n, sgn)` (R190). -/
def fits (x : Int) (n : Nat) (sgn : Bool) : Bool :=
  if sgn then decide (-(2 ^ (n - 1)) ≤ x ∧ x ≤ 2 ^ (n - 1) - 1) else decide (0 ≤ x ∧ x ≤ 2 ^ n - 1)

/-- The inverse transform of one channel (R188, R255): base plus delta, wrapped to `EP` bits. -/
def invTransform (base delta : Int) (EP : Nat) (sg : Bool) : Int :=
  if sg then sext ((delta + base) % 2 ^ EP) EP else (delta + base) % 2 ^ EP

/-- The sign extension of R254 of the field `v` of endpoint `k`, channel `c`. -/
def extendField (d : Desc6) (sg : Bool) (k c : Nat) (v : Int) : Int :=
  if k = 0 then (if sg then sext v d.EP else v)
  else if sg || d.tr then sext v (d.dW c) else v

/-- The forward transform (R189) of endpoint `k`, channel `c`, of the quantized endpoints `q`. -/
def stored6 (d : Desc6) (q : Nat → Nat → Int) (k c : Nat) : Int :=
  if d.tr = true ∧ k ≠ 0 then q k c - q 0 c else q k c

/-- A candidate fits a mode (R190). -/
def fits6 (d : Desc6) (sg : Bool) (st : Nat → Nat → Int) : Bool :=
  (List.range d.ne).all fun k => (List.range 3).all fun c =>
    if k = 0 then fits (st 0 c) d.EP sg else fits (st k c) (d.dW c) (sg || d.tr)

end Sys2Proof.Machine
end

