-- ==== Sys2Proof/Machine/Palette.lean ====
section
/-! DEFINITION. The palette builder (43_palette.md): interpolation, and the palette entries of the two formats. The
decoder computes the one entry a pixel's index selects, the encoder all of them; both use these functions (R200). -/

namespace Sys2Proof.Machine

/-- `INTERP(a, b, w)` (R202), over the constants `WMAX`, `WROUND`, `WSHIFT` (R8, R201). -/
def interp (T : Tables) (a b w : Int) : Int := (a * (T.wMax - w) + b * w + T.wRound) / 2 ^ T.wShift

/-- The unquantized BC7 endpoint channel from its value `v` with the p-bit (R173, R175, R236). -/
def unq7 (d : Desc7) (c : Nat) (v : Int) : Int :=
  if c = 3 ∧ d.AB = 0 then 255 else uq7 v.toNat (d.prec c)

/-- A stored field with its p-bit appended (R174, R235): `(f << 1) | pb`, the low bit of `f << 1` being 0. -/
def mergePb (d : Desc7) (pb : Vector Nat 6) (e : Nat) (f : Int) : Int :=
  if 0 < d.NP then 2 * f + rd pb (d.pbOf e) 0 else f

/-- Channel `c` of entry `j` of the BC7 palette of region `r` at index precision `ip` (R203, R239); `E e c` is the
unquantized endpoint. -/
def pal7 (T : Tables) (E : Nat → Nat → Int) (r ip j c : Nat) : Int :=
  interp T (E (2 * r) c) (E (2 * r + 1) c) (T.weight ip j)

/-- Channel `c` of entry `j` of the BC6H palette of region `r` (R204, R257): unquantize, interpolate, finish. `q e c`
is the `EP`-bit endpoint. -/
def pal6 (T : Tables) (d : Desc6) (sg : Bool) (q : Nat → Nat → Int) (r j c : Nat) : Int :=
  fin6 (interp T (uq6 (q (2 * r) c) d.EP sg) (uq6 (q (2 * r + 1) c) d.EP sg) (T.weight d.IP j)) sg

end Sys2Proof.Machine
end

