-- ==== Sys2Proof/Machine/DecodeBc7.lean ====
section
/-! DEFINITION. BC7 block decode (45_decode_bc7.md): the phases `D0` to `D7` of R230 over tables `T`, and the meanings
of the eight BC7 modes and of the reserved selector. One procedure serves all modes (R230). -/

namespace Sys2Proof.Machine

/-- `D0` (R231): find the unary selector. -/
def d0Bc7 (s : State) : State :=
  match selector7 s.blk with
  | none => { s with ph := .d0 }.raise .modeSelector
  | some m => { s with ph := .d0, mode := m, cur := m + 1 }

/-- `D1` (R232): the descriptor is looked up by `mode`; nothing is stored. -/
def d1Bc7 (s : State) : State := { s with ph := .d1 }

/-- `D2` (R233). -/
def d2Bc7 (T : Tables) (s : State) : State :=
  let d := T.bc7 s.mode
  let r := State.getAll .cursorRange [d.PB, d.RB, d.IB] { s with ph := .d2 }
  { r.2 with
    shape := r.1.getD 0 s.shape
    rot := r.1.getD 1 s.rot
    idxm := r.1.getD 2 s.idxm }

/-- `D3`, the fields (R234). -/
def readEndpoints7 (T : Tables) (s : State) : State :=
  let d := T.bc7 s.mode
  let r := State.getAll .cursorRange d.bodyWidths { s with ph := .d3 }
  { r.2 with
    ep := grid 6 4 fun e c =>
      if e < d.ne ∧ c < d.nch then ((r.1[c * d.ne + e]?).map Int.ofNat).getD (epAt s.ep e c) else epAt s.ep e c
    pb := tab 6 fun k => if k < d.NP then r.1.getD (d.nch * d.ne + k) (rd s.pb k 0) else rd s.pb k 0 }

/-- `D3`, the p-bit merge (R235). -/
def mergePbits7 (T : Tables) (s : State) : State :=
  let d := T.bc7 s.mode
  { s with ep := grid 6 4 fun e c =>
      if e < d.ne ∧ c < d.nch then mergePb d s.pb e (epAt s.ep e c) else epAt s.ep e c }

/-- `D4` does nothing in BC7 (R230). -/
def d4Bc7 (s : State) : State := { s with ph := .d4 }

/-- `D5`, the index arrays (R237). -/
def readIndices7 (T : Tables) (s : State) : State :=
  let d := T.bc7 s.mode
  let r := State.getAll .indexOverrun (T.idxWidths7 d s.shape) { s with ph := .d5 }
  { r.2 with
    ix1 := tab 16 fun i => r.1.getD i (rd s.ix1 i 0)
    ix2 := tab 16 fun i => if 0 < d.IP2 then r.1.getD (16 + i) (rd s.ix2 i 0) else rd s.ix2 i 0 }

/-- The length check after `D5` (R241, R259). -/
def checkLength (s : State) : State := if s.cur = 128 then s else s.raise .headerCount

/-- Colour index of pixel `i` (R238). -/
def colourIx (d : Desc7) (idxm : Nat) (ix1 ix2 : Vector Nat 16) (i : Nat) : Nat :=
  if 0 < d.IP2 ∧ idxm = 1 then rd ix2 i 0 else rd ix1 i 0

/-- Alpha index of pixel `i` (R238). -/
def alphaIx (d : Desc7) (idxm : Nat) (ix1 ix2 : Vector Nat 16) (i : Nat) : Nat :=
  if 0 < d.IP2 ∧ idxm ≠ 1 then rd ix2 i 0 else rd ix1 i 0

/-- The channels of decoded pixel `i` before the rotation (R236, R239). -/
def interpPixel7 (T : Tables) (s : State) (i c : Nat) : Int :=
  let d := T.bc7 s.mode
  let E := fun e c => unq7 d c (epAt s.ep e c)
  let r := T.region d.P s.shape i
  if c < 3 then pal7 T E r (d.cp s.idxm) (colourIx d s.idxm s.ix1 s.ix2 i) c
  else pal7 T E r (d.ap s.idxm) (alphaIx d s.idxm s.ix1 s.ix2 i) c

/-- `D6` (R236, R238, R239, R240). -/
def d6Bc7 (T : Tables) (s : State) : State :=
  { s with ph := .d6, pix := tab 16 fun i => pack7 (rotate s.rot (interpPixel7 T s i)) }

/-- `DEC` with `fmt = Bc7` on the latched block (R230). -/
def decodeBc7 (T : Tables) (s : State) : State :=
  runPhases [d0Bc7, d1Bc7, d2Bc7 T, readEndpoints7 T, mergePbits7 T, d4Bc7, readIndices7 T, checkLength,
    d6Bc7 T, State.respondDec] s

/-! ## The modes

An encoded block is interpreted where the decoder has latched it: in the block buffer (R65). Each meaning holds its
word there, where `step` found it, and runs the procedure of R230 on it. -/

/-- `BC7.M0` (R88). -/
def execBc7M0 (f : Bc7Fields) (s : State) : Host.Outcome State Fault Refusal :=
  .next (decodeBc7 tables { s with blk := encode7 0 f })

/-- `BC7.M1` (R89). -/
def execBc7M1 (f : Bc7Fields) (s : State) : Host.Outcome State Fault Refusal :=
  .next (decodeBc7 tables { s with blk := encode7 1 f })

/-- `BC7.M2` (R90). -/
def execBc7M2 (f : Bc7Fields) (s : State) : Host.Outcome State Fault Refusal :=
  .next (decodeBc7 tables { s with blk := encode7 2 f })

/-- `BC7.M3` (R91). -/
def execBc7M3 (f : Bc7Fields) (s : State) : Host.Outcome State Fault Refusal :=
  .next (decodeBc7 tables { s with blk := encode7 3 f })

/-- `BC7.M4` (R92). -/
def execBc7M4 (f : Bc7Fields) (s : State) : Host.Outcome State Fault Refusal :=
  .next (decodeBc7 tables { s with blk := encode7 4 f })

/-- `BC7.M5` (R93). -/
def execBc7M5 (f : Bc7Fields) (s : State) : Host.Outcome State Fault Refusal :=
  .next (decodeBc7 tables { s with blk := encode7 5 f })

/-- `BC7.M6` (R94). -/
def execBc7M6 (f : Bc7Fields) (s : State) : Host.Outcome State Fault Refusal :=
  .next (decodeBc7 tables { s with blk := encode7 6 f })

/-- `BC7.M7` (R95). -/
def execBc7M7 (f : Bc7Fields) (s : State) : Host.Outcome State Fault Refusal :=
  .next (decodeBc7 tables { s with blk := encode7 7 f })

/-- `BC7.RESERVED` (R116, R302): no mode is selected; `D0` raises `MalformedBlock.ModeSelector`. -/
def execBc7Reserved (rest : BitVec 120) (s : State) : Host.Outcome State Fault Refusal :=
  .next (decodeBc7 tables { s with blk := rest ++ 0x00#8 })

end Sys2Proof.Machine
end

