-- ==== Sys2Proof/Machine/DecodeBc6h.lean ====
section
/-! DEFINITION. BC6H block decode (46_decode_bc6h.md): the phases of R250 over tables `T`, and the meanings of the
fourteen BC6H modes and of the four reserved selectors. The signedness is the latched format's (R261). -/

namespace Sys2Proof.Machine

/-- `D0` (R251): the probe reads five bits at block bit 0 and does not move the cursor; its value is used by `D1`. -/
def d0Bc6h (s : State) : State := { s with ph := .d0 }

/-- `D1` (R252): mode lookup, and the comparison of the layout's length with the one the partition count implies. -/
def d1Bc6h (T : Tables) (s : State) : State :=
  match selector6 T s.blk with
  | none => { s with ph := .d1 }.raise .modeSelector
  | some mode =>
    if (T.layout mode).length ≠ (T.bc6h mode).hdr then { s with ph := .d1, mode := mode }.raise .headerCount
    else { s with ph := .d1, mode := mode, cur := (T.bc6h mode).selw }

/-- `D2`/`D3` (R253): scan the header bit by bit. -/
def scanHeader6 (T : Tables) (s : State) : State :=
  let L := (T.layout s.mode).drop (T.bc6h s.mode).selw
  let r := State.getAll .cursorRange (List.replicate L.length 1) { s with ph := .d3 }
  { r.2 with
    shape := assemble L r.1 .d
    ep := grid 6 4 fun k c => assemble L r.1 (.ep k c) }

/-- `D4`, sign extension (R254). -/
def signExtend6 (T : Tables) (s : State) : State :=
  let d := T.bc6h s.mode
  { s with
    ph := .d4
    ep := grid 6 4 fun k c =>
      if k < d.ne ∧ c < 3 then extendField d (sgOf s.fmt) k c (epAt s.ep k c) else epAt s.ep k c }

/-- `D4`, inverse transform (R188, R255). -/
def inverse6 (T : Tables) (s : State) : State :=
  let d := T.bc6h s.mode
  { s with
    ep := grid 6 4 fun k c =>
      if d.tr = true ∧ k ≠ 0 ∧ k < d.ne ∧ c < 3 then
        invTransform (epAt s.ep 0 c) (epAt s.ep k c) d.EP (sgOf s.fmt)
      else epAt s.ep k c }

/-- `D5` (R256). -/
def readIndices6 (T : Tables) (s : State) : State :=
  let r := State.getAll .indexOverrun (T.idxWidths6 (T.bc6h s.mode) s.shape) { s with ph := .d5 }
  { r.2 with ix1 := tab 16 fun i => r.1.getD i (rd s.ix1 i 0) }

/-- `D6` (R257). -/
def d6Bc6h (T : Tables) (s : State) : State :=
  let d := T.bc6h s.mode
  { s with
    ph := .d6
    pix := tab 16 fun i =>
      pack6 (pal6 T d (sgOf s.fmt) (epAt s.ep) (T.region d.P s.shape i) (rd s.ix1 i 0)) }

/-- `DEC` with a BC6H format on the latched block (R250). -/
def decodeBc6h (T : Tables) (s : State) : State :=
  runPhases [d0Bc6h, d1Bc6h T, scanHeader6 T, signExtend6 T, inverse6 T, readIndices6 T, checkLength,
    d6Bc6h T, State.respondDec] s

/-! ## The modes: each meaning holds its word in the block buffer and runs the procedure of R250 -/

/-- `BC6H.M1` (R101). -/
def execBc6hM1 (f : Bc6hFields) (s : State) : Host.Outcome State Fault Refusal :=
  .next (decodeBc6h tables { s with blk := encode6 1 f })

/-- `BC6H.M2` (R102). -/
def execBc6hM2 (f : Bc6hFields) (s : State) : Host.Outcome State Fault Refusal :=
  .next (decodeBc6h tables { s with blk := encode6 2 f })

/-- `BC6H.M3` (R103). -/
def execBc6hM3 (f : Bc6hFields) (s : State) : Host.Outcome State Fault Refusal :=
  .next (decodeBc6h tables { s with blk := encode6 3 f })

/-- `BC6H.M4` (R104). -/
def execBc6hM4 (f : Bc6hFields) (s : State) : Host.Outcome State Fault Refusal :=
  .next (decodeBc6h tables { s with blk := encode6 4 f })

/-- `BC6H.M5` (R105). -/
def execBc6hM5 (f : Bc6hFields) (s : State) : Host.Outcome State Fault Refusal :=
  .next (decodeBc6h tables { s with blk := encode6 5 f })

/-- `BC6H.M6` (R106). -/
def execBc6hM6 (f : Bc6hFields) (s : State) : Host.Outcome State Fault Refusal :=
  .next (decodeBc6h tables { s with blk := encode6 6 f })

/-- `BC6H.M7` (R107). -/
def execBc6hM7 (f : Bc6hFields) (s : State) : Host.Outcome State Fault Refusal :=
  .next (decodeBc6h tables { s with blk := encode6 7 f })

/-- `BC6H.M8` (R108). -/
def execBc6hM8 (f : Bc6hFields) (s : State) : Host.Outcome State Fault Refusal :=
  .next (decodeBc6h tables { s with blk := encode6 8 f })

/-- `BC6H.M9` (R109). -/
def execBc6hM9 (f : Bc6hFields) (s : State) : Host.Outcome State Fault Refusal :=
  .next (decodeBc6h tables { s with blk := encode6 9 f })

/-- `BC6H.M10` (R110). -/
def execBc6hM10 (f : Bc6hFields) (s : State) : Host.Outcome State Fault Refusal :=
  .next (decodeBc6h tables { s with blk := encode6 10 f })

/-- `BC6H.M11` (R111). -/
def execBc6hM11 (f : Bc6hFields) (s : State) : Host.Outcome State Fault Refusal :=
  .next (decodeBc6h tables { s with blk := encode6 11 f })

/-- `BC6H.M12` (R112). -/
def execBc6hM12 (f : Bc6hFields) (s : State) : Host.Outcome State Fault Refusal :=
  .next (decodeBc6h tables { s with blk := encode6 12 f })

/-- `BC6H.M13` (R113). -/
def execBc6hM13 (f : Bc6hFields) (s : State) : Host.Outcome State Fault Refusal :=
  .next (decodeBc6h tables { s with blk := encode6 13 f })

/-- `BC6H.M14` (R114). -/
def execBc6hM14 (f : Bc6hFields) (s : State) : Host.Outcome State Fault Refusal :=
  .next (decodeBc6h tables { s with blk := encode6 14 f })

/-- `BC6H.RESERVED_13` (R116, R252, R302): no row has the selector; `D1` raises `MalformedBlock.ModeSelector`. -/
def execBc6hReserved13 (rest : BitVec 123) (s : State) : Host.Outcome State Fault Refusal :=
  .next (decodeBc6h tables { s with blk := rest ++ 0x13#5 })

/-- `BC6H.RESERVED_17` (R116, R252, R302). -/
def execBc6hReserved17 (rest : BitVec 123) (s : State) : Host.Outcome State Fault Refusal :=
  .next (decodeBc6h tables { s with blk := rest ++ 0x17#5 })

/-- `BC6H.RESERVED_1B` (R116, R252, R302). -/
def execBc6hReserved1B (rest : BitVec 123) (s : State) : Host.Outcome State Fault Refusal :=
  .next (decodeBc6h tables { s with blk := rest ++ 0x1B#5 })

/-- `BC6H.RESERVED_1F` (R116, R252, R302). -/
def execBc6hReserved1F (rest : BitVec 123) (s : State) : Host.Outcome State Fault Refusal :=
  .next (decodeBc6h tables { s with blk := rest ++ 0x1F#5 })

end Sys2Proof.Machine
end

