-- ==== Sys2Proof/Machine/Assigner.lean ====
section
/-! DEFINITION. Index assigner, error accumulation and fixup normalisation (44_index_assigner.md): the encoder's
phases `E3` and `E4`. -/

namespace Sys2Proof.Machine

/-! ## Metric and search -/

/-- `DIST(p, c, S)` (R211): the sum of squared channel differences over the channel set `S`. -/
def dist (p q : Nat → Int) (S : List Nat) : Nat := (S.map fun c => (p c - q c).natAbs ^ 2).sum

/-- `NEAREST` (R212) over entries `0..n`, `D j` the distance to entry `j`: every entry is scanned and the lowest
index among equal minima wins. -/
def nearest (D : Nat → Nat) : Nat → Nat × Nat
  | 0 => (0, D 0)
  | n + 1 =>
    let b := nearest D n
    if D (n + 1) < b.2 then (n + 1, D (n + 1)) else b

/-- Adds each pixel's error to its region's accumulator, and forms the total (R214, R215, R217). -/
def addErrors (T : Tables) (P : Nat) (e : Nat → Nat) (s : State) : State :=
  let err := tab 3 fun r =>
    rd s.err r 0 + ((List.range 16).map fun i => if T.region P s.shape i = r then e i else 0).sum
  { s with err := err, errtot := rd err 0 0 + rd err 1 0 + rd err 2 0 }

/-! ## `E3` -/

/-- Pixel `i` of the tile in stored-channel order (R276). -/
def stored7 (s : State) (i : Nat) : Nat → Int := rotate s.rot (chan7 (rd s.tile i 0))

/-- The unquantized endpoints the decoder will reconstruct, from the stored fields and p-bits (R280). -/
def encE7 (d : Desc7) (s : State) (e c : Nat) : Int := unq7 d c (mergePb d s.pb e (epAt s.ep e c))

/-- The search of R214 for pixel `i` (single-index modes). -/
def search7 (T : Tables) (s : State) (i : Nat) : Nat × Nat :=
  let d := T.bc7 s.mode
  nearest (fun j => dist (stored7 s i) (pal7 T (encE7 d s) (T.region d.P s.shape i) d.IP j) [0, 1, 2, 3]) (2 ^ d.IP - 1)

/-- The colour search of R215 for pixel `i` (modes 4 and 5). -/
def searchColour7 (T : Tables) (s : State) (i : Nat) : Nat × Nat :=
  let d := T.bc7 s.mode
  nearest (fun j => dist (stored7 s i) (pal7 T (encE7 d s) 0 (d.cp s.idxm) j) [0, 1, 2]) (2 ^ d.cp s.idxm - 1)

/-- The alpha search of R215 for pixel `i` (modes 4 and 5). -/
def searchAlpha7 (T : Tables) (s : State) (i : Nat) : Nat × Nat :=
  let d := T.bc7 s.mode
  nearest (fun j => dist (stored7 s i) (pal7 T (encE7 d s) 0 (d.ap s.idxm) j) [3]) (2 ^ d.ap s.idxm - 1)

/-- `E3` in BC7 (R214, R215, R281). In the dual-index modes array 1 holds the `IP`-bit entries and array 2 the
`IP2`-bit ones, whichever of colour and alpha they index. -/
def e3Bc7 (T : Tables) (s : State) : State :=
  let d := T.bc7 s.mode
  if 0 < d.IP2 then
    addErrors T d.P (fun i => (searchColour7 T s i).2 + (searchAlpha7 T s i).2)
      { s with
        ph := .e3
        ix1 := tab 16 fun i => if s.idxm = 1 then (searchAlpha7 T s i).1 else (searchColour7 T s i).1
        ix2 := tab 16 fun i => if s.idxm = 1 then (searchColour7 T s i).1 else (searchAlpha7 T s i).1 }
  else
    addErrors T d.P (fun i => (search7 T s i).2)
      { s with ph := .e3, ix1 := tab 16 fun i => (search7 T s i).1 }

/-- The search of R216 for pixel `i`: the sample against the finished palette values. -/
def search6 (T : Tables) (s : State) (i : Nat) : Nat × Nat :=
  let d := T.bc6h s.mode
  nearest (fun j => dist (chan6 (sgOf s.fmt) (rd s.tile i 0))
      (pal6 T d (sgOf s.fmt) (epAt s.ep) (T.region d.P s.shape i) j) [0, 1, 2]) (2 ^ d.IP - 1)

/-- `E3` in BC6H (R216, R281). -/
def e3Bc6h (T : Tables) (s : State) : State :=
  addErrors T (T.bc6h s.mode).P (fun i => (search6 T s i).2)
    { s with ph := .e3, ix1 := tab 16 fun i => (search6 T s i).1 }

/-! ## `E4` -/

/-- The other endpoint of region `r` where `e` is one of its two, else `e`. -/
def partner (r e : Nat) : Nat := if e = 2 * r then 2 * r + 1 else if e = 2 * r + 1 then 2 * r else e

/-- One turn of the loop of R218, for region `r`: if the index at the region's fixup pixel has its high bit set,
swap the region's endpoints (and, where each endpoint has a p-bit of its own, its p-bits) and mirror the region's
indices. -/
def fixRegion (T : Tables) (P ip : Nat) (ownPb : Bool) (s : State) (r : Nat) : State :=
  if (rd s.ix1 (T.fixup P s.shape r) 0).testBit (ip - 1) then
    { s with
      ep := grid 6 4 fun e c => epAt s.ep (partner r e) c
      pb := if ownPb then tab 6 fun k => rd s.pb (partner r k) 0 else s.pb
      ix1 := tab 16 fun i => if T.region P s.shape i = r then 2 ^ ip - 1 - rd s.ix1 i 0 else rd s.ix1 i 0 }
  else s

/-- The loop of R218. -/
def fixRegions (T : Tables) (P ip : Nat) (ownPb : Bool) (s : State) : State :=
  (List.range (P + 1)).foldl (fixRegion T P ip ownPb) s

/-- The first half of R219 for array 1 (`IP`-bit entries): it indexes alpha where `idxm = 1`, else colour. -/
def fixArray1 (d : Desc7) (s : State) : State :=
  if (rd s.ix1 0 0).testBit (d.IP - 1) then
    { s with
      ep := grid 6 4 fun e c => if c < 3 ↔ s.idxm ≠ 1 then epAt s.ep (partner 0 e) c else epAt s.ep e c
      ix1 := tab 16 fun i => 2 ^ d.IP - 1 - rd s.ix1 i 0 }
  else s

/-- The same for array 2 (`IP2`-bit entries): it indexes colour where `idxm = 1`, else alpha. -/
def fixArray2 (d : Desc7) (s : State) : State :=
  if (rd s.ix2 0 0).testBit (d.IP2 - 1) then
    { s with
      ep := grid 6 4 fun e c => if c < 3 ↔ s.idxm = 1 then epAt s.ep (partner 0 e) c else epAt s.ep e c
      ix2 := tab 16 fun i => 2 ^ d.IP2 - 1 - rd s.ix2 i 0 }
  else s

/-- `E4` in BC7 (R218, R219, R282). The two arrays of a dual-index mode are normalised separately; they swap disjoint
channels, so their order does not matter. -/
def e4Bc7 (T : Tables) (s : State) : State :=
  let d := T.bc7 s.mode
  if 0 < d.IP2 then fixArray2 d (fixArray1 d { s with ph := .e4 })
  else fixRegions T d.P d.IP (d.NP == d.ne) { s with ph := .e4 }

/-- `E4` in BC6H (R218, R282): the swap is of the quantized, untransformed endpoints. -/
def e4Bc6h (T : Tables) (s : State) : State :=
  fixRegions T (T.bc6h s.mode).P (T.bc6h s.mode).IP false { s with ph := .e4 }

end Sys2Proof.Machine
end

