-- ==== Sys2Proof/Machine/Encoder.lean ====
section
/-! DEFINITION. The encoder back end (47_encoder.md): the phases `E0` to `E7` of R272 for the two families, over
tables `T`. `q` says which command runs: `ENCQ` (full-precision endpoints) or `ENCE` (mode-precision endpoints). -/

namespace Sys2Proof.Machine

/-! ## `E0` validate (R275) -/

/-- The checks of R275 for `fmt = Bc7`. -/
abbrev ValidBc7 (T : Tables) (q : Bool) (c : Candidate) : Prop :=
  c.mode.toNat ≤ 7 ∧
  c.shape.toNat < 2 ^ (T.bc7 c.mode.toNat).PB ∧
  c.rot.toNat < 2 ^ (T.bc7 c.mode.toNat).RB ∧
  c.idxm.toNat < 2 ^ (T.bc7 c.mode.toNat).IB ∧
  ∀ e < (T.bc7 c.mode.toNat).ne, ∀ ch < (T.bc7 c.mode.toNat).nch,
    0 ≤ candEp c e ch ∧ candEp c e ch < if q then 256 else 2 ^ (T.bc7 c.mode.toNat).epWidth e ch

/-- The lowest legal BC6H sample (R25, R275). -/
def lo6 (T : Tables) (sg : Bool) : Int := if sg then -T.f16max else 0

/-- The checks of R275 for `fmt = Bc6h*`. -/
abbrev ValidBc6h (T : Tables) (q sg : Bool) (c : Candidate) : Prop :=
  (1 ≤ c.mode.toNat ∧ c.mode.toNat ≤ 14) ∧
  c.shape.toNat < 2 ^ (T.bc6h c.mode.toNat).shapeBits ∧
  c.rot = 0 ∧ c.idxm = 0 ∧
  (∀ i < 16, ∀ ch < 3,
    lo6 T sg ≤ chan6 sg (rd c.tile i 0) ch ∧ chan6 sg (rd c.tile i 0) ch ≤ T.f16max) ∧
  ∀ e < (T.bc6h c.mode.toNat).ne, ∀ ch < 3,
    if q then lo6 T sg ≤ candEp c e ch ∧ candEp c e ch ≤ T.f16max
    else fits (candEp c e ch) (T.bc6h c.mode.toNat).EP sg = true

/-- The end of `E0`: the candidate's mode, shape, rotation and index mode are the operation's. -/
def loadCandidate (c : Candidate) (s : State) : State :=
  { s with
    ph := .e0, mode := c.mode.toNat, shape := c.shape.toNat, rot := c.rot.toNat, idxm := c.idxm.toNat }

def e0Bc7 (T : Tables) (q : Bool) (c : Candidate) (s : State) : State :=
  if ValidBc7 T q c then loadCandidate c s else { s with ph := .e0 }.raise .badCandidate

def e0Bc6h (T : Tables) (q : Bool) (c : Candidate) (s : State) : State :=
  if ValidBc6h T q (sgOf s.fmt) c then loadCandidate c s else { s with ph := .e0 }.raise .badCandidate

/-! ## `E1` quantize -/

/-- `qp[e][c]` (R278): the endpoint quantized to the precision that includes the p-bit; without p-bits (R277) the
stored precision. -/
def quant7 (d : Desc7) (c : Candidate) (e ch : Nat) : Nat := q7 (candEp c e ch).toNat (d.prec ch)

/-- The terms that share p-bit `g` (R278). -/
def voters (d : Desc7) (g : Nat) : List (Nat × Nat) := d.epOrder.filter fun p => d.pbOf p.1 == g

/-- The vote on p-bit `g` (R278): a strict majority of the least-significant bits; a tie gives 0. -/
def votePb (d : Desc7) (c : Candidate) (g : Nat) : Nat :=
  if (voters d g).length >>> 1 < ((voters d g).map fun p => quant7 d c p.1 p.2 % 2).sum then 1 else 0

/-- The endpoint fields `E1` stores for a BC7 candidate (R277, R278); 0 where the mode stores none. -/
def fieldBc7 (d : Desc7) (q : Bool) (c : Candidate) (e ch : Nat) : Int :=
  if e < d.ne ∧ ch < d.nch then
    if q then (if 0 < d.NP then ((quant7 d c e ch >>> 1 : Nat) : Int) else quant7 d c e ch)
    else candEp c e ch
  else 0

/-- The p-bits `E1` stores for a BC7 candidate (R277, R278). -/
def pbitBc7 (d : Desc7) (q : Bool) (c : Candidate) (k : Nat) : Nat :=
  if k < d.NP then (if q then votePb d c k else candPb c k) else 0

def e1Bc7 (T : Tables) (q : Bool) (c : Candidate) (s : State) : State :=
  let d := T.bc7 s.mode
  { s with ph := .e1, ep := grid 6 4 (fieldBc7 d q c), pb := tab 6 (pbitBc7 d q c) }

/-- The quantized endpoints `q[e][c]` of a BC6H candidate (R279); 0 where the mode has none. -/
def endpointBc6h (T : Tables) (d : Desc6) (q sg : Bool) (c : Candidate) (e ch : Nat) : Int :=
  if e < d.ne ∧ ch < 3 then (if q then q6 T.f16max (candEp c e ch) d.EP sg else candEp c e ch) else 0

def e1Bc6h (T : Tables) (q : Bool) (c : Candidate) (s : State) : State :=
  { s with ph := .e1, ep := grid 6 4 (endpointBc6h T (T.bc6h s.mode) q (sgOf s.fmt) c) }

/-- `E2` builds the palette, which is no state (R30): it is computed where `E3` reads it (R280). -/
def e2Palette (s : State) : State := { s with ph := .e2 }

/-! ## `E5` transform and fit -/

/-- `E5` does nothing in BC7 (R283). -/
def e5Bc7 (s : State) : State := { s with ph := .e5 }

/-- `E5` in BC6H (R283): the forward transform of the endpoints the fixup left, and the fit check. -/
def e5Bc6h (T : Tables) (s : State) : State :=
  let d := T.bc6h s.mode
  if fits6 d (sgOf s.fmt) (stored6 d (epAt s.ep)) then { s with ph := .e5 }
  else { s with ph := .e5 }.raise .noFit

/-! ## `E6` pack -/

/-- The fields of the BC7 block that the registers hold. -/
def regFields7 (s : State) : Bc7Fields where
  shape := s.shape
  rot := s.rot
  idxm := s.idxm
  ep := grid 6 4 fun e c => (epAt s.ep e c).toNat
  pb := s.pb
  ix1 := s.ix1
  ix2 := s.ix2

/-- The fields of the BC6H block that the registers hold: the stored endpoints' low bits in two's complement (R285). -/
def regFields6 (d : Desc6) (s : State) : Bc6hFields where
  shape := s.shape
  ep := grid 4 3 fun k c => (stored6 d (epAt s.ep) k c % 2 ^ d.epWidth k c).toNat
  ix := s.ix1

/-- `E6` in BC7 (R284). -/
def e6Bc7 (T : Tables) (s : State) : State :=
  State.putAll ((regFields7 s).fields T s.mode) { s with ph := .e6 }

/-- `E6` in BC6H (R285). -/
def e6Bc6h (T : Tables) (s : State) : State :=
  State.putAll ((regFields6 (T.bc6h s.mode) s).fields T s.mode) { s with ph := .e6 }

/-- The end check of `E6` (R287). -/
def e6Check (s : State) : State := if s.cur = 128 then s else s.raise .cursorRange

/-! ## The operations (R272) -/

/-- `ENCQ` (`q`) or `ENCE` with `fmt = Bc7`, from an accepted command. -/
def encodeBc7 (T : Tables) (q : Bool) (c : Candidate) (s : State) : State :=
  runPhases [e0Bc7 T q c, e1Bc7 T q c, e2Palette, e3Bc7 T, e4Bc7 T, e5Bc7, e6Bc7 T, e6Check, State.respondEnc] s

/-- `ENCQ` (`q`) or `ENCE` with a BC6H format, from an accepted command. -/
def encodeBc6h (T : Tables) (q : Bool) (c : Candidate) (s : State) : State :=
  runPhases [e0Bc6h T q c, e1Bc6h T q c, e2Palette, e3Bc6h T, e4Bc6h T, e5Bc6h T, e6Bc6h T, e6Check,
    State.respondEnc] s

end Sys2Proof.Machine
end

