-- ==== Sys2Proof/Machine/Commands.lean ====
section
/-! DEFINITION. The meanings of the commands of the command port (R120, R121).

A `DEC` is accepted: its block is latched and the decoder stands at `D0`, where the next step interprets the block as
the instruction it is (R65; R337 leaves the split of an operation into steps to the model, log entry 4). An `ENC*` is
accepted and runs its phases `E0` to `E7`. A reserved form is refused at acceptance (R309). -/

namespace Sys2Proof.Machine

/-- `DEC Bc7, blk` (R33, R230). -/
def execDecBc7 (B : Block) (s : State) : Host.Outcome State Fault Refusal := .next (s.acceptDec 0 B)

/-- `DEC Bc6hUnsigned, blk` (R33, R250). -/
def execDecBc6hUnsigned (B : Block) (s : State) : Host.Outcome State Fault Refusal := .next (s.acceptDec 1 B)

/-- `DEC Bc6hSigned, blk` (R33, R250). -/
def execDecBc6hSigned (B : Block) (s : State) : Host.Outcome State Fault Refusal := .next (s.acceptDec 2 B)

/-- `ENCQ Bc7` (R272, R273). -/
def execEncqBc7 (c : Candidate) (s : State) : Host.Outcome State Fault Refusal :=
  .next (encodeBc7 tables true c (s.acceptEnc 1 0 c))

/-- `ENCQ Bc6hUnsigned` (R272, R273). -/
def execEncqBc6hUnsigned (c : Candidate) (s : State) : Host.Outcome State Fault Refusal :=
  .next (encodeBc6h tables true c (s.acceptEnc 1 1 c))

/-- `ENCQ Bc6hSigned` (R272, R273). -/
def execEncqBc6hSigned (c : Candidate) (s : State) : Host.Outcome State Fault Refusal :=
  .next (encodeBc6h tables true c (s.acceptEnc 1 2 c))

/-- `ENCE Bc7` (R272, R274). -/
def execEnceBc7 (c : Candidate) (s : State) : Host.Outcome State Fault Refusal :=
  .next (encodeBc7 tables false c (s.acceptEnc 2 0 c))

/-- `ENCE Bc6hUnsigned` (R272, R274). -/
def execEnceBc6hUnsigned (c : Candidate) (s : State) : Host.Outcome State Fault Refusal :=
  .next (encodeBc6h tables false c (s.acceptEnc 2 1 c))

/-- `ENCE Bc6hSigned` (R272, R274). -/
def execEnceBc6hSigned (c : Candidate) (s : State) : Host.Outcome State Fault Refusal :=
  .next (encodeBc6h tables false c (s.acceptEnc 2 2 c))

/-- `CMD.RESERVED_OP` (R120, R309). -/
def execCmdReservedOp (fmt : BitVec 2) (s : State) : Host.Outcome State Fault Refusal := .next (s.acceptBad 3 fmt)

/-- `CMD.RESERVED_FMT` (R121, R309). -/
def execCmdReservedFmt (op : BitVec 2) (s : State) : Host.Outcome State Fault Refusal := .next (s.acceptBad op 3)

end Sys2Proof.Machine
end

