-- ==== Sys2Proof/Machine/Dispatch.lean ====
section
/-! DEFINITION. The meaning of each instruction, by name: one arm per constructor of Instr. -/

namespace Sys2Proof.Machine

def exec (i : Instr) (s : State) : Host.Outcome State Fault Refusal :=
  match i with
  -- BC7 blocks (45_decode_bc7.md)
  | .bc7M0 f => Sys2Proof.Machine.execBc7M0 f s
  | .bc7M1 f => Sys2Proof.Machine.execBc7M1 f s
  | .bc7M2 f => Sys2Proof.Machine.execBc7M2 f s
  | .bc7M3 f => Sys2Proof.Machine.execBc7M3 f s
  | .bc7M4 f => Sys2Proof.Machine.execBc7M4 f s
  | .bc7M5 f => Sys2Proof.Machine.execBc7M5 f s
  | .bc7M6 f => Sys2Proof.Machine.execBc7M6 f s
  | .bc7M7 f => Sys2Proof.Machine.execBc7M7 f s
  | .bc7Reserved rest => Sys2Proof.Machine.execBc7Reserved rest s
  -- BC6H blocks (46_decode_bc6h.md)
  | .bc6hM1 f => Sys2Proof.Machine.execBc6hM1 f s
  | .bc6hM2 f => Sys2Proof.Machine.execBc6hM2 f s
  | .bc6hM3 f => Sys2Proof.Machine.execBc6hM3 f s
  | .bc6hM4 f => Sys2Proof.Machine.execBc6hM4 f s
  | .bc6hM5 f => Sys2Proof.Machine.execBc6hM5 f s
  | .bc6hM6 f => Sys2Proof.Machine.execBc6hM6 f s
  | .bc6hM7 f => Sys2Proof.Machine.execBc6hM7 f s
  | .bc6hM8 f => Sys2Proof.Machine.execBc6hM8 f s
  | .bc6hM9 f => Sys2Proof.Machine.execBc6hM9 f s
  | .bc6hM10 f => Sys2Proof.Machine.execBc6hM10 f s
  | .bc6hM11 f => Sys2Proof.Machine.execBc6hM11 f s
  | .bc6hM12 f => Sys2Proof.Machine.execBc6hM12 f s
  | .bc6hM13 f => Sys2Proof.Machine.execBc6hM13 f s
  | .bc6hM14 f => Sys2Proof.Machine.execBc6hM14 f s
  | .bc6hReserved13 rest => Sys2Proof.Machine.execBc6hReserved13 rest s
  | .bc6hReserved17 rest => Sys2Proof.Machine.execBc6hReserved17 rest s
  | .bc6hReserved1B rest => Sys2Proof.Machine.execBc6hReserved1B rest s
  | .bc6hReserved1F rest => Sys2Proof.Machine.execBc6hReserved1F rest s
  -- commands (30_encoding.md section 6)
  | .decBc7 blk => Sys2Proof.Machine.execDecBc7 blk s
  | .decBc6hUnsigned blk => Sys2Proof.Machine.execDecBc6hUnsigned blk s
  | .decBc6hSigned blk => Sys2Proof.Machine.execDecBc6hSigned blk s
  | .encqBc7 c => Sys2Proof.Machine.execEncqBc7 c s
  | .encqBc6hUnsigned c => Sys2Proof.Machine.execEncqBc6hUnsigned c s
  | .encqBc6hSigned c => Sys2Proof.Machine.execEncqBc6hSigned c s
  | .enceBc7 c => Sys2Proof.Machine.execEnceBc7 c s
  | .enceBc6hUnsigned c => Sys2Proof.Machine.execEnceBc6hUnsigned c s
  | .enceBc6hSigned c => Sys2Proof.Machine.execEnceBc6hSigned c s
  | .cmdReservedOp fmt => Sys2Proof.Machine.execCmdReservedOp fmt s
  | .cmdReservedFmt op => Sys2Proof.Machine.execCmdReservedFmt op s

end Sys2Proof.Machine
end

