-- ==== Sys2Proof/Machine/Step.lean ====
section
/-! DEFINITION. One step of BC67.

A step is one clock edge at which something happens (R337, R340, log entries 3 and 4): the port inputs of the step
are read; `rst` resets; a held response is taken or waits (R33, R334); an idle block accepts a presented command
(R33, R333) and runs its meaning; a block latched by `DEC` is interpreted as the instruction it is (R65). -/

namespace Sys2Proof.Machine

/-- The port inputs of the step. -/
def State.input (s : State) : PortIn := s.inputs.headD .quiet

/-- The state with the step's inputs read. -/
def State.afterInput (s : State) : State := { s with inputs := s.inputs.tail }

/-- The instruction that a state fetches under the port inputs `p`: a presented command where the block is ready
(R33), the latched block where the decoder stands at `D0` (R65). -/
def fetch (p : PortIn) (s : State) : Option Instr :=
  if s.rsp.isSome then none
  else if s.busy = false then p.cmd.map fun c => decode (.cmd c)
  else if s.ph = .d0 then decodeLatched s.fmt s.blk
  else none

/-- The step under port inputs `p`, without reset. -/
def stepWith (p : PortIn) (s : State) : Host.Outcome State Fault Refusal :=
  match fetch p s with
  | some i => exec i s
  | none =>
    if s.rsp.isSome then .next (if p.rspReady then s.takeResponse else s)
    else if s.busy = false then .next s
    else .fault .outOfPhase

def step (s : State) : Host.Outcome State Fault Refusal :=
  if s.input.rst then .next s.afterInput.resetPort else stepWith s.input s.afterInput

/-- `s` with an instruction word of the opcode table where `step` fetches its next instruction: a command is
presented on the port of an idle block, an encoded block is latched as by a `DEC` (in format `Bc6hUnsigned` for a
BC6H row). -/
def State.withFetchWord (s : State) (nbits w : Nat) : State :=
  match tableCode nbits w with
  | .cmd c => { s with busy := false, ph := .idle, rsp := none, inputs := ⟨false, some c, false⟩ :: s.inputs }
  | .bc7 B => { s.acceptDec 0 B with inputs := PortIn.quiet :: s.inputs }
  | .bc6h B => { s.acceptDec 1 B with inputs := PortIn.quiet :: s.inputs }

end Sys2Proof.Machine
end

