-- ==== Sys2Proof/WellFormed.lean ====
section
/-! DEFINITION. Which instructions are well formed: every field fits the width its mode gives it.

A field a mode lacks has width 0, so only the value 0 fits (the convention of R147 and R275). Every candidate of an
`ENC*` command is well formed: what R275 finds wrong with one is answered by the command itself, with `BadCandidate`. -/

namespace Sys2Proof

/-- The fields fit BC7 mode `m` (R83, R84, R86). -/
abbrev Bc7Fields.WF (m : Nat) (f : Bc7Fields) : Prop :=
  f.shape < 2 ^ (tables.bc7 m).PB ∧ f.rot < 2 ^ (tables.bc7 m).RB ∧ f.idxm < 2 ^ (tables.bc7 m).IB ∧
  (∀ e < 6, ∀ c < 4, cell f.ep e c 0 < 2 ^ (tables.bc7 m).epWidth e c) ∧
  (∀ k < 6, rd f.pb k 0 < if k < (tables.bc7 m).NP then 2 else 1) ∧
  (∀ i < 16, rd f.ix1 i 0 < 2 ^ tables.idxWidth (tables.bc7 m).P f.shape (tables.bc7 m).IP i) ∧
  (∀ i < 16, rd f.ix2 i 0 < 2 ^ (tables.bc7 m).idx2Width i)

/-- The fields fit BC6H mode `mode` (R97 to R100). -/
abbrev Bc6hFields.WF (mode : Nat) (f : Bc6hFields) : Prop :=
  f.shape < 2 ^ (tables.bc6h mode).shapeBits ∧
  (∀ k < 4, ∀ c < 3, cell f.ep k c 0 < 2 ^ (tables.bc6h mode).epWidth k c) ∧
  (∀ i < 16, rd f.ix i 0 < 2 ^ tables.idxWidth (tables.bc6h mode).P f.shape (tables.bc6h mode).IP i)

/-- Well-formed instructions. -/
abbrev Instr.WF (i : Instr) : Prop :=
  match i with
  | .bc7M0 f => f.WF 0
  | .bc7M1 f => f.WF 1
  | .bc7M2 f => f.WF 2
  | .bc7M3 f => f.WF 3
  | .bc7M4 f => f.WF 4
  | .bc7M5 f => f.WF 5
  | .bc7M6 f => f.WF 6
  | .bc7M7 f => f.WF 7
  | .bc7Reserved _ => True
  | .bc6hM1 f => f.WF 1
  | .bc6hM2 f => f.WF 2
  | .bc6hM3 f => f.WF 3
  | .bc6hM4 f => f.WF 4
  | .bc6hM5 f => f.WF 5
  | .bc6hM6 f => f.WF 6
  | .bc6hM7 f => f.WF 7
  | .bc6hM8 f => f.WF 8
  | .bc6hM9 f => f.WF 9
  | .bc6hM10 f => f.WF 10
  | .bc6hM11 f => f.WF 11
  | .bc6hM12 f => f.WF 12
  | .bc6hM13 f => f.WF 13
  | .bc6hM14 f => f.WF 14
  | .bc6hReserved13 _ => True
  | .bc6hReserved17 _ => True
  | .bc6hReserved1B _ => True
  | .bc6hReserved1F _ => True
  | .decBc7 _ => True
  | .decBc6hUnsigned _ => True
  | .decBc6hSigned _ => True
  | .encqBc7 _ => True
  | .encqBc6hUnsigned _ => True
  | .encqBc6hSigned _ => True
  | .enceBc7 _ => True
  | .enceBc6hUnsigned _ => True
  | .enceBc6hSigned _ => True
  | .cmdReservedOp _ => True
  | .cmdReservedFmt op => op ≠ 3

end Sys2Proof
end

