-- ==== Sys2Proof/Safety.lean ====
section
/-! DEFINITION. The terms claims are stated in: when a state is coherent (10_state.md section 6) and in range (R22),
and the reference results of an operation, computed from its operands alone, without registers, cursor or phases. -/

namespace Sys2Proof.Machine

/-! ## Good states -/

/-- The fields of a response present exactly when R34 says they are valid. -/
def Response.Valid (op : BitVec 2) (r : Response) : Prop :=
  (r.pix.isSome = true ↔ r.status = .ok ∧ op = 0) ∧
  (r.blk.isSome = true ↔ r.status = .ok ∧ (op = 1 ∨ op = 2)) ∧
  (r.errtot.isSome = true ↔ r.status = .ok ∧ (op = 1 ∨ op = 2)) ∧
  (r.err.isSome = true ↔ r.status = .ok ∧ (op = 1 ∨ op = 2))

/-- Handshake, phase and response agree (R28, R33, R34): the block is busy exactly outside `IDLE`; it holds a
response exactly in `D7`, `E7` and `FAULT`; a busy block without one is a `DEC` at `D0` (the model's choice of what a
step is, R337, log entry 4); a held response carries the status register and the fields R34 gives that status, and its
status is one BC67 produces (R306). -/
structure State.Coherent (s : State) : Prop where
  busy_iff : s.busy = true ↔ s.ph ≠ .idle
  rsp_iff : s.rsp.isSome = true ↔ s.ph = .d7 ∨ s.ph = .e7 ∨ s.ph = .fault
  waiting : s.busy = true → s.rsp = none → s.ph = .d0 ∧ s.op = 0 ∧ s.fmt ≠ 3
  response : ∀ r, s.rsp = some r → r.status = s.status ∧ r.Valid s.op ∧ r.status ≠ .noCandidate

/-- Every register in the range R22 and R27 give it. -/
structure State.InRange (s : State) : Prop where
  cur : s.cur ≤ 128
  mode : s.mode < 16
  shape : s.shape < 64
  rot : s.rot < 4
  idxm : s.idxm < 2
  ep : ∀ e < 6, ∀ c < 4, -32768 ≤ epAt s.ep e c ∧ epAt s.ep e c ≤ 65535
  pb : ∀ k < 6, rd s.pb k 0 < 2
  ix1 : ∀ i < 16, rd s.ix1 i 0 < 16
  ix2 : ∀ i < 16, rd s.ix2 i 0 < 8
  err : ∀ r < 3, rd s.err r 0 < 2 ^ 40
  errtot : s.errtot < 2 ^ 40

/-- The block is ready and the host presents command `c` (R33, R340). -/
def State.Presents (s : State) (c : Cmd) : Prop :=
  s.busy = false ∧ s.rsp = none ∧ s.input.rst = false ∧ s.input.cmd = some c

/-- Two commands of one operation on the same operands: they agree in `op` and `fmt`, two `DEC` in the block, two `ENC*`
in candidate and tile. The fields R32 says the other operation's commands carry are ignored, and a reserved command is
refused before any other field is looked at (R309). -/
def SameOperands (c d : Cmd) : Prop :=
  c.op = d.op ∧ c.fmt = d.fmt ∧
  (c.fmt ≠ 3 → (c.op = 0 → c.blk = d.blk) ∧ (c.op = 1 ∨ c.op = 2 → c.cand = d.cand))

/-- The command `ENCQ` (`q`) or `ENCE` of candidate `c` in format `fmt` (R120, R121). -/
def encInstr (q : Bool) (fmt : Fin 3) (c : Candidate) : Instr :=
  match q, fmt with
  | true, 0 => .encqBc7 c
  | true, 1 => .encqBc6hUnsigned c
  | true, 2 => .encqBc6hSigned c
  | false, 0 => .enceBc7 c
  | false, 1 => .enceBc6hUnsigned c
  | false, 2 => .enceBc6hSigned c

/-- Its `op` field (R120). -/
def encOp (q : Bool) : BitVec 2 := if q then 1 else 2

/-- What R275 asks of a candidate in format `fmt`. -/
def ValidCandidate (q : Bool) (fmt : Fin 3) (c : Candidate) : Prop :=
  if fmt = 0 then ValidBc7 tables q c else ValidBc6h tables q (fmt == 2) c

/-- The number of steps from the presentation of a command to its response: a `DEC` is accepted in one step and
interpreted in the next (log entry 4). -/
def opSteps (c : Cmd) : Nat := if c.op = 0 ∧ c.fmt ≠ 3 then 2 else 1

/-! ## Where the spec puts a field -/

/-- The value of the field whose bit `k` is block bit `ps[k]` (R98). -/
def gather (B : Block) (ps : List Nat) : Nat := (ps.zipIdx.map fun p => bit B p.1 * 2 ^ p.2).sum

/-- The scattered fields of M1 to M5: mode, endpoint, channel, and the block bit of each field bit, lowest first. -/
def scatteredA : List (Nat × Nat × Nat × List Nat) :=
  [ (1, 2, 1, [41, 42, 43, 44, 2]),
    (1, 2, 2, [61, 62, 63, 64, 3]),
    (1, 3, 1, [51, 52, 53, 54, 40]),
    (1, 3, 2, [50, 60, 70, 76, 4]),
    (2, 2, 1, [41, 42, 43, 44, 24, 2]),
    (2, 3, 1, [51, 52, 53, 54, 3, 4]),
    (2, 2, 2, [61, 62, 63, 64, 14, 22]),
    (2, 3, 2, [12, 13, 23, 32, 34, 33]),
    (3, 0, 0, [5, 6, 7, 8, 9, 10, 11, 12, 13, 14, 40]),
    (3, 0, 1, [15, 16, 17, 18, 19, 20, 21, 22, 23, 24, 49]),
    (3, 0, 2, [25, 26, 27, 28, 29, 30, 31, 32, 33, 34, 59]),
    (3, 3, 2, [50, 60, 70, 76]),
    (4, 0, 0, [5, 6, 7, 8, 9, 10, 11, 12, 13, 14, 39]),
    (4, 0, 1, [15, 16, 17, 18, 19, 20, 21, 22, 23, 24, 50]),
    (4, 0, 2, [25, 26, 27, 28, 29, 30, 31, 32, 33, 34, 59]),
    (4, 2, 1, [41, 42, 43, 44, 75]),
    (4, 3, 1, [51, 52, 53, 54, 40]),
    (4, 3, 2, [69, 60, 70, 76]),
    (5, 0, 0, [5, 6, 7, 8, 9, 10, 11, 12, 13, 14, 39]),
    (5, 0, 1, [15, 16, 17, 18, 19, 20, 21, 22, 23, 24, 49]),
    (5, 0, 2, [25, 26, 27, 28, 29, 30, 31, 32, 33, 34, 60]),
    (5, 2, 2, [61, 62, 63, 64, 40]),
    (5, 3, 2, [50, 69, 70, 76, 75]) ]

/-- The scattered fields of M6 to M9: mode, endpoint, channel, and the block bit of each field bit, lowest first. -/
def scatteredB : List (Nat × Nat × Nat × List Nat) :=
  [ (6, 2, 1, [41, 42, 43, 44, 24]),
    (6, 2, 2, [61, 62, 63, 64, 14]),
    (6, 3, 1, [51, 52, 53, 54, 40]),
    (6, 3, 2, [50, 60, 70, 76, 34]),
    (7, 2, 1, [41, 42, 43, 44, 24]),
    (7, 2, 2, [61, 62, 63, 64, 14]),
    (7, 3, 1, [51, 52, 53, 54, 13]),
    (7, 3, 2, [50, 60, 23, 33, 34]),
    (8, 2, 1, [41, 42, 43, 44, 24, 23]),
    (8, 2, 2, [61, 62, 63, 64, 14]),
    (8, 3, 1, [51, 52, 53, 54, 40, 33]),
    (8, 3, 2, [13, 60, 70, 76, 34]),
    (9, 2, 1, [41, 42, 43, 44, 24]),
    (9, 2, 2, [61, 62, 63, 64, 14, 23]),
    (9, 3, 1, [51, 52, 53, 54, 40]),
    (9, 3, 2, [50, 13, 70, 76, 34, 33]) ]

/-- The scattered fields of M10 to M14: mode, endpoint, channel, and the block bit of each field bit, lowest first. -/
def scatteredC : List (Nat × Nat × Nat × List Nat) :=
  [ (10, 2, 1, [41, 42, 43, 44, 24, 21]),
    (10, 2, 2, [61, 62, 63, 64, 14, 22]),
    (10, 3, 1, [51, 52, 53, 54, 11, 31]),
    (10, 3, 2, [12, 13, 23, 32, 34, 33]),
    (12, 0, 0, [5, 6, 7, 8, 9, 10, 11, 12, 13, 14, 44]),
    (12, 0, 1, [15, 16, 17, 18, 19, 20, 21, 22, 23, 24, 54]),
    (12, 0, 2, [25, 26, 27, 28, 29, 30, 31, 32, 33, 34, 64]),
    (13, 0, 0, [5, 6, 7, 8, 9, 10, 11, 12, 13, 14, 44, 43]),
    (13, 0, 1, [15, 16, 17, 18, 19, 20, 21, 22, 23, 24, 54, 53]),
    (13, 0, 2, [25, 26, 27, 28, 29, 30, 31, 32, 33, 34, 64, 63]),
    (14, 0, 0, [5, 6, 7, 8, 9, 10, 11, 12, 13, 14, 44, 43, 42, 41, 40, 39]),
    (14, 0, 1, [15, 16, 17, 18, 19, 20, 21, 22, 23, 24, 54, 53, 52, 51, 50, 49]),
    (14, 0, 2, [25, 26, 27, 28, 29, 30, 31, 32, 33, 34, 64, 63, 62, 61, 60, 59]) ]

/-- Every "Scattered fields" line of R101 to R114. -/
def scatteredFields : List (Nat × Nat × Nat × List Nat) := scatteredA ++ scatteredB ++ scatteredC

/-- The fields of M1 to M5 that stand in one run of ascending bits: mode, endpoint, channel, first block bit,
width. -/
def runsA : List (Nat × Nat × Nat × Nat × Nat) :=
  [ (1, 0, 0, 5, 10), (1, 0, 1, 15, 10), (1, 0, 2, 25, 10), (1, 1, 0, 35, 5), (1, 1, 1, 45, 5), (1, 1, 2, 55, 5),
    (1, 2, 0, 65, 5), (1, 3, 0, 71, 5),
    (2, 0, 0, 5, 7), (2, 0, 1, 15, 7), (2, 0, 2, 25, 7), (2, 1, 0, 35, 6), (2, 1, 1, 45, 6), (2, 1, 2, 55, 6),
    (2, 2, 0, 65, 6), (2, 3, 0, 71, 6),
    (3, 1, 0, 35, 5), (3, 1, 1, 45, 4), (3, 1, 2, 55, 4), (3, 2, 0, 65, 5), (3, 2, 1, 41, 4), (3, 2, 2, 61, 4),
    (3, 3, 0, 71, 5), (3, 3, 1, 51, 4),
    (4, 1, 0, 35, 4), (4, 1, 1, 45, 5), (4, 1, 2, 55, 4), (4, 2, 0, 65, 4), (4, 2, 2, 61, 4), (4, 3, 0, 71, 4),
    (5, 1, 0, 35, 4), (5, 1, 1, 45, 4), (5, 1, 2, 55, 5), (5, 2, 0, 65, 4), (5, 2, 1, 41, 4), (5, 3, 0, 71, 4),
    (5, 3, 1, 51, 4) ]

/-- The fields of M6 to M10 that stand in one run of ascending bits: mode, endpoint, channel, first block bit,
width. -/
def runsB : List (Nat × Nat × Nat × Nat × Nat) :=
  [ (6, 0, 0, 5, 9), (6, 0, 1, 15, 9), (6, 0, 2, 25, 9), (6, 1, 0, 35, 5), (6, 1, 1, 45, 5), (6, 1, 2, 55, 5),
    (6, 2, 0, 65, 5), (6, 3, 0, 71, 5),
    (7, 0, 0, 5, 8), (7, 0, 1, 15, 8), (7, 0, 2, 25, 8), (7, 1, 0, 35, 6), (7, 1, 1, 45, 5), (7, 1, 2, 55, 5),
    (7, 2, 0, 65, 6), (7, 3, 0, 71, 6),
    (8, 0, 0, 5, 8), (8, 0, 1, 15, 8), (8, 0, 2, 25, 8), (8, 1, 0, 35, 5), (8, 1, 1, 45, 6), (8, 1, 2, 55, 5),
    (8, 2, 0, 65, 5), (8, 3, 0, 71, 5),
    (9, 0, 0, 5, 8), (9, 0, 1, 15, 8), (9, 0, 2, 25, 8), (9, 1, 0, 35, 5), (9, 1, 1, 45, 5), (9, 1, 2, 55, 6),
    (9, 2, 0, 65, 5), (9, 3, 0, 71, 5),
    (10, 0, 0, 5, 6), (10, 0, 1, 15, 6), (10, 0, 2, 25, 6), (10, 1, 0, 35, 6), (10, 1, 1, 45, 6),
    (10, 1, 2, 55, 6), (10, 2, 0, 65, 6), (10, 3, 0, 71, 6) ]

/-- The fields of M11 to M14 that stand in one run of ascending bits: mode, endpoint, channel, first block bit,
width. -/
def runsC : List (Nat × Nat × Nat × Nat × Nat) :=
  [ (11, 0, 0, 5, 10), (11, 0, 1, 15, 10), (11, 0, 2, 25, 10), (11, 1, 0, 35, 10), (11, 1, 1, 45, 10),
    (11, 1, 2, 55, 10),
    (12, 1, 0, 35, 9), (12, 1, 1, 45, 9), (12, 1, 2, 55, 9),
    (13, 1, 0, 35, 8), (13, 1, 1, 45, 8), (13, 1, 2, 55, 8),
    (14, 1, 0, 35, 4), (14, 1, 1, 45, 4), (14, 1, 2, 55, 4) ]

/-- Every endpoint field of R101 to R114 that is not scattered. -/
def runFields : List (Nat × Nat × Nat × Nat × Nat) := runsA ++ runsB ++ runsC

/-- The first block bit of the indices of a BC6H mode, 82 with two regions and 65 with one (R58, R97). -/
def indexStart6 (mode : Nat) : Nat := if mode ≤ 10 then 82 else 65

/-- The fields of the BC7 mode-`m` block `B` stand at the given first bits, endpoint after endpoint (R88 to R95). -/
def FieldsAt (m : Nat) (B : Block) (shape rot idxm r g b a pb ix1 ix2 : Nat) : Prop :=
  let d := tables.bc7 m
  let f := parse7 tables m B
  f.shape = rdbits B shape d.PB ∧ f.rot = rdbits B rot d.RB ∧ f.idxm = rdbits B idxm d.IB ∧
  (∀ e < d.ne, cell f.ep e 0 0 = rdbits B (r + d.CB * e) d.CB ∧ cell f.ep e 1 0 = rdbits B (g + d.CB * e) d.CB ∧
    cell f.ep e 2 0 = rdbits B (b + d.CB * e) d.CB ∧ (0 < d.AB → cell f.ep e 3 0 = rdbits B (a + d.AB * e) d.AB)) ∧
  (∀ k < d.NP, rd f.pb k 0 = rdbits B (pb + k) 1) ∧
  (∀ i < 16, rd f.ix1 i 0 = rdbits B (ix1 + totalWidth ((List.range i).map (tables.idxWidth d.P f.shape d.IP)))
    (tables.idxWidth d.P f.shape d.IP i)) ∧
  (0 < d.IP2 → ∀ i < 16, rd f.ix2 i 0 = rdbits B (ix2 + totalWidth ((List.range i).map d.idx2Width)) (d.idx2Width i))

/-! ## What a block decodes to -/

/-- Endpoint channel of a BC7 block after p-bit and unquantization (the "Endpoint value" of R88 to R95; R175). -/
def refEndpoint7 (m : Nat) (f : Bc7Fields) (e c : Nat) : Int :=
  let d := tables.bc7 m
  let w := if c < 3 then d.CB else d.AB
  if w = 0 then 255
  else if d.NP = 0 then uq7 (cell f.ep e c 0) w
  else uq7 (2 * cell f.ep e c 0 + rd f.pb (d.pbOf e) 0) (w + 1)

/-- Channel `c` of decoded pixel `i` of a BC7 block before rotation (R238, R239). -/
def refChannel7 (m : Nat) (f : Bc7Fields) (i c : Nat) : Int :=
  let d := tables.bc7 m
  let r := tables.region d.P f.shape i
  let second : Bool := d.IP2 ≠ 0 ∧ (c < 3 ↔ f.idxm = 1)
  interp tables (refEndpoint7 m f (2 * r) c) (refEndpoint7 m f (2 * r + 1) c)
    (if second then tables.weight d.IP2 (rd f.ix2 i 0) else tables.weight d.IP (rd f.ix1 i 0))

/-- The tile a BC7 block decodes to (R240, R241). -/
def refTile7 (m : Nat) (f : Bc7Fields) : Tile := tab 16 fun i => pack7 (rotate f.rot (refChannel7 m f i))

/-- Endpoint channel of a BC6H block after sign extension and inverse transform (R254, R255). -/
def refEndpoint6 (mode : Nat) (sg : Bool) (f : Bc6hFields) (k c : Nat) : Int :=
  let d := tables.bc6h mode
  let field : Nat → Int := fun e => (cell f.ep e c (0 : Nat) : Nat)
  let base : Int := if sg then sext (field 0) d.EP else field 0
  let delta : Int := if sg = true ∨ d.tr = true then sext (field k) (d.dW c) else field k
  if k = 0 then base
  else if d.tr = false then delta
  else if sg then sext ((delta + base) % 2 ^ d.EP) d.EP
  else (delta + base) % 2 ^ d.EP

/-- The tile a BC6H block decodes to (R257, R259). -/
def refTile6 (mode : Nat) (sg : Bool) (f : Bc6hFields) : Tile :=
  let d := tables.bc6h mode
  tab 16 fun i =>
    let r := tables.region d.P f.shape i
    pack6 fun c => fin6 (interp tables (uq6 (refEndpoint6 mode sg f (2 * r) c) d.EP sg)
      (uq6 (refEndpoint6 mode sg f (2 * r + 1) c) d.EP sg) (tables.weight d.IP (rd f.ix i 0))) sg

/-- The response of `DEC fmt, B` (R230, R250, R302) for a legal format. -/
def refDecode (fmt : BitVec 2) (B : Block) : Response :=
  if fmt = 0 then
    match selector7 B with
    | none => Response.statusOnly .modeSelector
    | some m => Response.decoded (refTile7 m (parse7 tables m B))
  else
    match selector6 tables B with
    | none => Response.statusOnly .modeSelector
    | some mode => Response.decoded (refTile6 mode (sgOf fmt) (parse6 tables mode B))

/-! ## What a candidate encodes to -/

/-- The other endpoint of the region of endpoint `e` where `swap` says so, else `e` itself (R218). -/
def endOf (swap : Bool) (e : Nat) : Nat := if swap then (if e % 2 = 0 then e + 1 else e - 1) else e

/-- The mirrored index `N-1-j`, `N = 2^ip`, where `swap` says so (R218). -/
def mirrored (swap : Bool) (ip j : Nat) : Nat := if swap then 2 ^ ip - 1 - j else j

/-- The unquantized endpoints of a BC7 candidate (R280). -/
def refCandE7 (q : Bool) (c : Candidate) (e ch : Nat) : Int :=
  let d := tables.bc7 c.mode.toNat
  unq7 d ch (mergePb d (tab 6 (pbitBc7 d q c)) e (fieldBc7 d q c e ch))

/-- Index and error of pixel `i` of a BC7 candidate over the channels `S`, palette precision `ip` (R211, R212). -/
def refSearch7 (q : Bool) (c : Candidate) (ip : Nat) (S : List Nat) (i : Nat) : Nat × Nat :=
  let d := tables.bc7 c.mode.toNat
  nearest (fun j => dist (rotate c.rot.toNat (chan7 (rd c.tile i 0)))
    (pal7 tables (refCandE7 q c) (tables.region d.P c.shape.toNat i) ip j) S) (2 ^ ip - 1)

/-- The channels that index array 1 of a BC7 candidate selects: all of them in a mode with one array (R214), else
colour or alpha as `idxm` says (R215). -/
def refChannels1 (c : Candidate) : List Nat :=
  if (tables.bc7 c.mode.toNat).IP2 = 0 then [0, 1, 2, 3] else if c.idxm = 1 then [3] else [0, 1, 2]

/-- The channels that index array 2 of a dual-index BC7 candidate selects (R215). -/
def refChannels2 (c : Candidate) : List Nat := if c.idxm = 1 then [0, 1, 2] else [3]

/-- Array-1 index and error of pixel `i` before the fixup (R214, R215). -/
def refFirst7 (q : Bool) (c : Candidate) (i : Nat) : Nat × Nat :=
  refSearch7 q c (tables.bc7 c.mode.toNat).IP (refChannels1 c) i

/-- Array-2 index and error of pixel `i` before the fixup (R215); index and error 0 in a mode with one array. -/
def refSecond7 (q : Bool) (c : Candidate) (i : Nat) : Nat × Nat :=
  if (tables.bc7 c.mode.toNat).IP2 = 0 then (0, 0)
  else refSearch7 q c (tables.bc7 c.mode.toNat).IP2 (refChannels2 c) i

/-- Whether the fixup swaps region `r` for array 1 (R218, R219). -/
def refSwap1 (q : Bool) (c : Candidate) (r : Nat) : Bool :=
  let d := tables.bc7 c.mode.toNat
  (refFirst7 q c (tables.fixup d.P c.shape.toNat r)).1.testBit (d.IP - 1)

/-- Whether the fixup swaps the endpoints for array 2 (R219). -/
def refSwap2 (q : Bool) (c : Candidate) : Bool :=
  (refSecond7 q c 0).1.testBit ((tables.bc7 c.mode.toNat).IP2 - 1)

/-- The stored endpoint fields of a BC7 candidate after the fixup (R218, R219, R277, R278). -/
def refEp7 (q : Bool) (c : Candidate) (e ch : Nat) : Int :=
  fieldBc7 (tables.bc7 c.mode.toNat) q c
    (endOf (if ch ∈ refChannels1 c then refSwap1 q c (e / 2) else refSwap2 q c) e) ch

/-- The fields of the block a BC7 candidate is packed into (R284): a p-bit travels with its endpoint only where
every endpoint has its own (R218). -/
def refFields7 (q : Bool) (c : Candidate) : Bc7Fields :=
  let d := tables.bc7 c.mode.toNat
  { shape := c.shape.toNat
    rot := c.rot.toNat
    idxm := c.idxm.toNat
    ep := grid 6 4 fun e ch => (refEp7 q c e ch).toNat
    pb := tab 6 fun k => pbitBc7 d q c (if d.NP = d.ne then endOf (refSwap1 q c (k / 2)) k else k)
    ix1 := tab 16 fun i =>
      mirrored (refSwap1 q c (tables.region d.P c.shape.toNat i)) d.IP (refFirst7 q c i).1
    ix2 := tab 16 fun i => if d.IP2 = 0 then 0 else mirrored (refSwap2 q c) d.IP2 (refSecond7 q c i).1 }

/-- Squared error of pixel `i` of a BC7 candidate (R214, R215). -/
def refErr7 (q : Bool) (c : Candidate) (i : Nat) : Nat := (refFirst7 q c i).2 + (refSecond7 q c i).2

/-- The quantized endpoints of a BC6H candidate (R279). -/
def refQ6 (q sg : Bool) (c : Candidate) (e ch : Nat) : Int :=
  endpointBc6h tables (tables.bc6h c.mode.toNat) q sg c e ch

/-- Index and error of pixel `i` of a BC6H candidate (R216). -/
def refSearch6 (q sg : Bool) (c : Candidate) (i : Nat) : Nat × Nat :=
  let d := tables.bc6h c.mode.toNat
  nearest (fun j => dist (chan6 sg (rd c.tile i 0))
    (pal6 tables d sg (refQ6 q sg c) (tables.region d.P c.shape.toNat i) j) [0, 1, 2]) (2 ^ d.IP - 1)

/-- Whether the fixup swaps region `r` of a BC6H candidate (R218). -/
def refSwap6 (q sg : Bool) (c : Candidate) (r : Nat) : Bool :=
  let d := tables.bc6h c.mode.toNat
  (refSearch6 q sg c (tables.fixup d.P c.shape.toNat r)).1.testBit (d.IP - 1)

/-- The endpoints of a BC6H candidate after the fixup and the forward transform (R218, R189, R283). -/
def refStored6 (q sg : Bool) (c : Candidate) : Nat → Nat → Int :=
  stored6 (tables.bc6h c.mode.toNat) fun e ch => refQ6 q sg c (endOf (refSwap6 q sg c (e / 2)) e) ch

/-- The candidate fits its mode (R190, R283). -/
def FitsBc6h (q sg : Bool) (c : Candidate) : Prop :=
  fits6 (tables.bc6h c.mode.toNat) sg (refStored6 q sg c) = true

/-- The fields of the block a BC6H candidate is packed into (R285). -/
def refFields6 (q sg : Bool) (c : Candidate) : Bc6hFields :=
  let d := tables.bc6h c.mode.toNat
  { shape := c.shape.toNat
    ep := grid 4 3 fun k ch => (refStored6 q sg c k ch % 2 ^ d.epWidth k ch).toNat
    ix := tab 16 fun i =>
      mirrored (refSwap6 q sg c (tables.region d.P c.shape.toNat i)) d.IP (refSearch6 q sg c i).1 }

/-! ## Errors -/

/-- Sum over the pixels of region `r` (R288 (c)). -/
def regionSum (P shape r : Nat) (e : Nat → Nat) : Nat :=
  ((List.range 16).map fun i => if tables.region P shape i = r then e i else 0).sum

/-- Sum over all pixels (R288 (b)). -/
def tileSum (e : Nat → Nat) : Nat := ((List.range 16).map e).sum

/-- Squared difference of pixel `i` of two BC7 tiles (R211, R288). -/
def pixelError7 (a b : Tile) (i : Nat) : Nat := dist (chan7 (rd a i 0)) (chan7 (rd b i 0)) [0, 1, 2, 3]

/-- Squared difference of pixel `i` of two BC6H tiles (R211, R288). -/
def pixelError6 (sg : Bool) (a b : Tile) (i : Nat) : Nat := dist (chan6 sg (rd a i 0)) (chan6 sg (rd b i 0)) [0, 1, 2]

end Sys2Proof.Machine
end

