-- ==== Sys2Proof/Certificates/Slice0/Obligations.lean ====
section
/-! DEFINITION. The statements for the provers. Each docstring names the rules of spec/ the statement formalises. -/

section

open Sys2Proof Sys2Proof.Machine

/-! ## Encodings -/

/-- Words written out in the spec decode to the instructions it says they are: R242 (BC7 mode 6), R262 (BC6H mode 1),
R89 and R103 (all-zero operands), R116 (reserved selectors), R120 and R121 (command keys). -/
def Obligations.ListedWordsDecode : Prop :=
  decode (.bc7 0x2AAAAAAAAAAAAAAA8000000000000040) =
    .bc7M6 ⟨0, 0, 0, grid 6 4 fun _ _ => 0, tab 6 fun k => if k = 0 then 1 else 0,
      tab 16 fun i => if i = 0 then 5 else if i = 15 then 2 else 10, tab 16 fun _ => 0⟩ ∧
  decode (.bc6h 0xF800004000) =
    .bc6hM1 ⟨0, grid 4 3 fun k c => if c ≠ 0 then 0 else if k = 0 then 512 else if k = 1 then 31 else 0,
      tab 16 fun _ => 0⟩ ∧
  decode (.bc7 0x02) =
    .bc7M1 ⟨0, 0, 0, grid 6 4 fun _ _ => 0, tab 6 fun _ => 0, tab 16 fun _ => 0, tab 16 fun _ => 0⟩ ∧
  decode (.bc6h 0x02) = .bc6hM3 ⟨0, grid 4 3 fun _ _ => 0, tab 16 fun _ => 0⟩ ∧
  decode (.bc7 0x00) = .bc7Reserved 0 ∧ decode (.bc6h 0x13) = .bc6hReserved13 0 ∧
  decode (.bc6h 0x17) = .bc6hReserved17 0 ∧ decode (.bc6h 0x1B) = .bc6hReserved1B 0 ∧
  decode (.bc6h 0x1F) = .bc6hReserved1F 0 ∧
  ∀ B c, decode (.cmd ⟨0, 0, B, c⟩) = .decBc7 B ∧ decode (.cmd ⟨0, 2, B, c⟩) = .decBc6hSigned B ∧
    decode (.cmd ⟨1, 1, B, c⟩) = .encqBc6hUnsigned c ∧ decode (.cmd ⟨2, 0, B, c⟩) = .enceBc7 c ∧
    decode (.cmd ⟨3, 1, B, c⟩) = .cmdReservedOp 1 ∧ decode (.cmd ⟨2, 3, B, c⟩) = .cmdReservedFmt 2

/-- R83, R84: no bit of any field of a BC7 block is dropped, at any value a mode admits. -/
def Obligations.Bc7DecodeOfEncode : Prop :=
  ∀ (m : Fin 8) (f : Bc7Fields), (Instr.bc7 m f).WF → decode (encode (.bc7 m f)) = .bc7 m f

/-- R97 to R99: the same of the fourteen BC6H modes. -/
def Obligations.Bc6hDecodeOfEncode : Prop :=
  ∀ (k : Fin 14) (f : Bc6hFields), (Instr.bc6h k f).WF → decode (encode (.bc6h k f)) = .bc6h k f

/-- R116, R120, R121: the same of the reserved selectors and of the commands. A command with `op = 3` and `fmt = 3` fits
both reserved rows: that it is read as `cmdReservedOp` (the clause of `cmdReservedOp` at format 3) is the model's choice
(log entry 6). -/
def Obligations.ReservedAndCommandDecodeOfEncode : Prop :=
  (∀ r, decode (encode (.bc7Reserved r)) = .bc7Reserved r) ∧
  (∀ r, decode (encode (.bc6hReserved13 r)) = .bc6hReserved13 r ∧ decode (encode (.bc6hReserved17 r)) = .bc6hReserved17 r ∧
    decode (encode (.bc6hReserved1B r)) = .bc6hReserved1B r ∧ decode (encode (.bc6hReserved1F r)) = .bc6hReserved1F r) ∧
  (∀ B, decode (encode (.decBc7 B)) = .decBc7 B ∧ decode (encode (.decBc6hUnsigned B)) = .decBc6hUnsigned B ∧
    decode (encode (.decBc6hSigned B)) = .decBc6hSigned B) ∧
  (∀ q fmt c, decode (encode (encInstr q fmt c)) = encInstr q fmt c) ∧
  (∀ fmt, decode (encode (.cmdReservedOp fmt)) = .cmdReservedOp fmt) ∧
  (∀ op, (Instr.cmdReservedFmt op).WF → decode (encode (.cmdReservedFmt op)) = .cmdReservedFmt op)

/-- R118: every block is well formed under either family, and its 128 bits all belong to its fields: encoding what
was decoded gives the block back. -/
def Obligations.EncodeOfDecodedBlock : Prop :=
  ∀ B : Block, (decode (.bc7 B)).WF ∧ encode (decode (.bc7 B)) = .bc7 B ∧
    (decode (.bc6h B)).WF ∧ encode (decode (.bc6h B)) = .bc6h B

/-- R82. -/
def Obligations.Bc7SelectorIsUnary : Prop :=
  ∀ (B : Block) (m : Fin 8),
    ((∃ f, decode (.bc7 B) = .bc7 m f) ↔ (∀ k < m.val, bit B k = 0) ∧ bit B m = 1) ∧
    ((∃ f, decode (.bc7 B) = .bc7 m f) → rdbits B 0 (m + 1) = 2 ^ m.val)

/-- R96: the first two bits select mode 1 or mode 2, else the first five are the mode's `sel`; the four values no mode
has are the reserved ones; and the counts of the 32 five-bit values. -/
def Obligations.Bc6hSelectorIsTwoOrFiveBits : Prop :=
  (∀ B : Block,
    ((∃ f, decode (.bc6h B) = .bc6hM1 f) ↔ rdbits B 0 2 = 0) ∧
    ((∃ f, decode (.bc6h B) = .bc6hM2 f) ↔ rdbits B 0 2 = 1) ∧
    (∀ k : Fin 14, 2 ≤ k.val → ((∃ f, decode (.bc6h B) = .bc6h k f) ↔ rdbits B 0 5 = (tables.bc6h (k + 1)).sel)) ∧
    ((∃ r, decode (.bc6h B) = .bc6hReserved13 r) ↔ rdbits B 0 5 = 0x13) ∧
    ((∃ r, decode (.bc6h B) = .bc6hReserved17 r) ↔ rdbits B 0 5 = 0x17) ∧
    ((∃ r, decode (.bc6h B) = .bc6hReserved1B r) ↔ rdbits B 0 5 = 0x1B) ∧
    ((∃ r, decode (.bc6h B) = .bc6hReserved1F r) ↔ rdbits B 0 5 = 0x1F)) ∧
  let modes := (List.range 32).map fun v => selector6 tables (BitVec.ofNat 128 v)
  modes.count (some 1) = 8 ∧ modes.count (some 2) = 8 ∧ modes.count none = 4 ∧
    ∀ k < 15, 3 ≤ k → modes.count (some k) = 1

/-- R88 to R95: where every field of every BC7 mode stands. -/
def Obligations.Bc7FieldPositions : Prop :=
  ∀ B : Block,
    FieldsAt 0 B 1 5 5 5 29 53 77 77 83 128 ∧ FieldsAt 1 B 2 8 8 8 32 56 80 80 82 128 ∧
    FieldsAt 2 B 3 9 9 9 39 69 99 99 99 128 ∧ FieldsAt 3 B 4 10 10 10 38 66 94 94 98 128 ∧
    FieldsAt 4 B 5 5 7 8 18 28 38 50 50 81 ∧ FieldsAt 5 B 6 6 8 8 22 36 50 66 66 97 ∧
    FieldsAt 6 B 7 7 7 7 21 35 49 63 65 128 ∧ FieldsAt 7 B 8 14 14 14 34 54 74 94 98 128

/-- R101 to R114, their "Scattered fields" lines: each field is gathered from the block bits listed for it. -/
def Obligations.Bc6hScatteredFields : Prop :=
  ∀ B : Block, ∀ p ∈ scatteredFields, cell (parse6 tables p.1 B).ep p.2.1 p.2.2.1 0 = gather B p.2.2.2

/-- R101 to R114, their "Layout" lines, with R97 and R84: the fields of BC6H that are not scattered, the shape and the
index entries each stand in one run of ascending block bits; a one-region mode has no shape and no endpoints 2 and 3
(R99); and each endpoint field of each mode is either one of these or one of the scattered ones. -/
def Obligations.Bc6hContiguousFields : Prop :=
  (∀ B : Block,
    (∀ p ∈ runFields, cell (parse6 tables p.1 B).ep p.2.1 p.2.2.1 0 = rdbits B p.2.2.2.1 p.2.2.2.2) ∧
    ∀ mode < 15, 1 ≤ mode →
      let d := tables.bc6h mode
      let f := parse6 tables mode B
      f.shape = (if mode ≤ 10 then rdbits B 77 5 else 0) ∧
      (10 < mode → ∀ k < 4, 2 ≤ k → ∀ c < 3, cell f.ep k c 0 = 0) ∧
      ∀ i < 16, rd f.ix i 0 =
        rdbits B (indexStart6 mode + totalWidth ((List.range i).map (tables.idxWidth d.P f.shape d.IP)))
          (tables.idxWidth d.P f.shape d.IP i)) ∧
  ∀ mode < 15, 1 ≤ mode → ∀ k < 4, ∀ c < 3,
    ((scatteredFields.map fun p => (p.1, p.2.1, p.2.2.1)) ++ runFields.map fun p => (p.1, p.2.1, p.2.2.1)).count
      (mode, k, c) = if k < (tables.bc6h mode).ne then 1 else 0

/-! ## The bit cursor -/

/-- R51, R141, R52: a field is little-endian within the block, and reading it in one access gives what reading it in
two gives. For a field that leaves the block, which no access reads (R144), this is about the bare `rdbits`, and what that
answers there is the model's choice (log entry 10). -/
def Obligations.ReadFieldIsLittleEndian : Prop :=
  ∀ (B : Block) (off w : Nat),
    rdbits B off w < 2 ^ w ∧ (∀ k < w, (rdbits B off w).testBit k = B.getLsbD (off + k)) ∧
    ∀ v, rdbits B off (w + v) = rdbits B off w ||| (rdbits B (off + w) v <<< w)

/-- R142, R57: a write puts the low `w` bits of the value into the field and disturbs no other bit. -/
def Obligations.WriteFieldChangesItsBitsOnly : Prop :=
  ∀ (B : Block) (off w v : Nat), off + w ≤ 128 →
    rdbits (wrbits B off w v) off w = v % 2 ^ w ∧
    ∀ n, (n < off ∨ off + w ≤ n) → (wrbits B off w v).getLsbD n = B.getLsbD n

/-- R147, with R144 for the accesses that leave the block. -/
def Obligations.GetAndPutMoveTheCursor : Prop :=
  ∀ (s : State) (c : Status) (w v : Nat),
    (s.cur + w ≤ 128 →
      State.getAll c [w] s = ([rdbits s.blk s.cur w], { s with cur := s.cur + w }) ∧
      State.putAll [(w, v)] s = { s with blk := wrbits s.blk s.cur w v, cur := s.cur + w }) ∧
    (128 < s.cur + w →
      State.getAll c [w] s = ([], s.raise c) ∧ (s.raise c).cur = s.cur ∧ (s.raise c).blk = s.blk ∧
      State.putAll [(w, v)] s = s.raise .cursorRange) ∧
    (s.cur ≤ 128 → State.getAll c [0] s = ([0], s) ∧ State.putAll [(0, v)] s = s)

/-! ## Tables -/

/-- R85 (with the array sizes of R84 for every shape, and the header lengths). -/
def Obligations.Bc7FieldsTotal128 : Prop :=
  ∀ m < 8,
    let d := tables.bc7 m
    (m + 1) + d.PB + d.RB + d.IB + 2 * (d.P + 1) * (3 * d.CB + d.AB) + d.NP + (16 * d.IP - (d.P + 1)) +
      (if 0 < d.IP2 then 16 * d.IP2 - 1 else 0) = 128 ∧
    indexStart7 d m = [83, 82, 99, 98, 50, 66, 65, 98].getD m 0 ∧
    ∀ shape < 2 ^ d.PB, totalWidth (tables.idxWidths7 d shape) =
      (16 * d.IP - (d.P + 1)) + (if 0 < d.IP2 then 16 * d.IP2 - 1 else 0)

/-- R97 to R100: every BC6H header is 82 or 65 bits, starts with the selector's bits, and holds every bit of every field
the mode has exactly once; the indices fill the rest of the block. -/
def Obligations.Bc6hHeadersAreComplete : Prop :=
  ∀ mode < 15, 1 ≤ mode →
    let d := tables.bc6h mode
    let L := tables.layout mode
    L.length = (if mode ≤ 10 then 82 else 65) ∧ L.length = d.hdr ∧ L.Nodup ∧
    L.take d.selw = (List.range d.selw).map (fun b => (HdrField.m, b)) ∧
    (∀ b < 16, (HdrField.m, b) ∈ L ↔ b < d.selw) ∧ (∀ b < 16, (HdrField.d, b) ∈ L ↔ b < d.shapeBits) ∧
    (∀ k < 4, ∀ c < 3, ∀ b < 16, (HdrField.ep k c, b) ∈ L ↔ b < d.epWidth k c) ∧
    d.IP = (if mode ≤ 10 then 3 else 4) ∧
    ∀ shape < 2 ^ d.shapeBits, totalWidth (tables.idxWidths6 d shape) = 128 - d.hdr

/-- R157. -/
def Obligations.ShapeTableInvariants : Prop :=
  (∀ s < 64,
    (tables.region 1 s 0 = 0 ∧ tables.region 2 s 0 = 0) ∧
    ((∀ r < 2, ∃ i < 16, tables.region 1 s i = r) ∧ (∀ r < 3, ∃ i < 16, tables.region 2 s i = r)) ∧
    (tables.region 1 s (tables.fixup 1 s 1) = 1 ∧ tables.region 2 s (tables.fixup 2 s 1) = 1 ∧
      tables.region 2 s (tables.fixup 2 s 2) = 2) ∧
    (tables.fixup 1 s 1 ≠ 0 ∧ tables.fixup 2 s 1 ≠ 0 ∧ tables.fixup 2 s 2 ≠ 0 ∧
      tables.fixup 2 s 1 ≠ tables.fixup 2 s 2) ∧
    ∀ i < 16, tables.region 1 s i < 2 ∧ tables.region 2 s i < 3) ∧
  (∀ s < 64, ∀ u < s, (∃ i < 16, tables.region 1 s i ≠ tables.region 1 u i) ∧
    ∃ i < 16, tables.region 2 s i ≠ tables.region 2 u i)

/-- R201. -/
def Obligations.WeightTables : Prop :=
  (List.range 4).map (tables.weight 2) = [0, 21, 43, 64] ∧
  (List.range 8).map (tables.weight 3) = [0, 9, 18, 27, 37, 46, 55, 64] ∧
  (List.range 16).map (tables.weight 4) = [0, 4, 9, 13, 17, 21, 26, 30, 34, 38, 43, 47, 51, 55, 60, 64] ∧
  tables.wMax = 64 ∧ tables.wRound = 32 ∧ tables.wShift = 6 ∧
  ∀ ip < 5, 2 ≤ ip → ∀ j < 2 ^ ip, tables.weight ip (2 ^ ip - 1 - j) = 64 - tables.weight ip j

/-! ## Quantizer and transform -/

/-- R171 to R173: the quantized value fits its precision, full precision loses nothing, and the unquantizer maps the
whole range onto 0..255, its ends to its ends. -/
def Obligations.Bc7QuantizerRange : Prop :=
  (∀ v < 256, ∀ p < 9, 1 ≤ p → q7 v p < 2 ^ p) ∧ (∀ v < 256, q7 v 8 = v) ∧
  ∀ p < 9, 4 ≤ p → (∀ q < 2 ^ p, uq7 q p ≤ 255) ∧ uq7 0 p = 0 ∧ uq7 (2 ^ p - 1) p = 255

/-- R176: the exact round-trip deviations, and at which precisions they exceed one quantization step. -/
def Obligations.Bc7RoundTripDeviation : Prop :=
  ∀ x ∈ [(5, 11), (6, 5), (7, 2), (8, 0)],
    (∀ v < 256, ((uq7 (q7 v x.1) x.1 : Int) - v).natAbs ≤ x.2) ∧
    (∃ v < 256, ((uq7 (q7 v x.1) x.1 : Int) - v).natAbs = x.2) ∧
    (x.2 ≤ 2 ^ (8 - x.1) ↔ 7 ≤ x.1) ∧ (x.1 = 5 → x.2 = 2 ^ (8 - x.1) + 3) ∧ (x.1 = 6 → x.2 = 2 ^ (8 - x.1) + 1)

/-- R186: the exact round-trip deviations of the BC6H chain, each below one quantization step except where the
quantizer passes values through. -/
def Obligations.Bc6hRoundTripDeviation : Prop :=
  let chain := fun (sg : Bool) (p : Nat) (v : Int) => fin6 (uq6 (q6 tables.f16max v p sg) p sg) sg
  (∀ x ∈ [(6, 495), (7, 247), (8, 123), (9, 61), (10, 30), (11, 15), (12, 7), (13, 3), (14, 1)],
    (∀ v : Nat, v ≤ 31743 → (chain false x.1 v - v).natAbs ≤ x.2) ∧
    (∃ v : Nat, v ≤ 31743 ∧ (chain false x.1 v - v).natAbs = x.2) ∧ x.2 * 2 ^ x.1 < 31744) ∧
  (∀ p, (p = 15 ∨ p = 16) → (∀ v : Nat, v ≤ 31743 → (chain false p v - v).natAbs ≤ 16368) ∧
    (chain false p 31743 - 31743).natAbs = 16368) ∧
  (∀ x ∈ [(6, 991), (7, 495), (8, 247), (9, 123), (10, 61), (11, 30), (12, 15), (13, 7), (14, 3), (15, 1)],
    (∀ v : Int, -31743 ≤ v → v ≤ 31743 → (chain true x.1 v - v).natAbs ≤ x.2) ∧
    (∃ v : Int, -31743 ≤ v ∧ v ≤ 31743 ∧ (chain true x.1 v - v).natAbs = x.2) ∧ x.2 * 2 ^ (x.1 - 1) < 31744) ∧
  (∀ v : Int, -31743 ≤ v → v ≤ 31743 → (chain true 16 v - v).natAbs ≤ 992) ∧
  (chain true 16 (-31743) - -31743).natAbs = 992

/-- R187: sign extension of a field, as a number, as `sext_n` of R12, and as the bits of a 17-bit `ep` register. -/
def Obligations.SignExtension : Prop :=
  ∀ n, 1 ≤ n → n ≤ 16 → ∀ v : Nat, v < 2 ^ n →
    sext v n = (if v.testBit (n - 1) then (v : Int) - 2 ^ n else v) ∧
    -(2 ^ (n - 1)) ≤ sext v n ∧ sext v n ≤ 2 ^ (n - 1) - 1 ∧
    sext v n = (BitVec.ofNat n v).toInt ∧
    (∀ b < n, (BitVec.ofInt 17 (sext v n)).getLsbD b = v.testBit b) ∧
    ∀ b < 17, n - 1 ≤ b → (BitVec.ofInt 17 (sext v n)).getLsbD b = v.testBit (n - 1)

/-- R189: the forward transform, and that the inverse transform of R188 recovers the endpoints from the low bits of
the stored fields wherever the fields fit (R190). -/
def Obligations.InverseTransformUndoesForward : Prop :=
  ∀ mode < 15, 1 ≤ mode →
    let d := tables.bc6h mode
    ∀ (sg : Bool) (q : Nat → Nat → Int),
      (∀ e < d.ne, ∀ c < 3, fits (q e c) d.EP sg = true) →
      (∀ c, stored6 d q 0 c = q 0 c) ∧
      (∀ k, 1 ≤ k → ∀ c, stored6 d q k c = if d.tr then q k c - q 0 c else q k c) ∧
      (fits6 d sg (stored6 d q) = true → ∀ k < d.ne, 1 ≤ k → ∀ c < 3, d.tr = true →
        invTransform (q 0 c) (sext (stored6 d q k c % 2 ^ d.dW c) (d.dW c)) d.EP sg = q k c)

/-! ## Palette and search -/

/-- R202. -/
def Obligations.InterpolationRange : Prop :=
  ∀ a b w : Int, 0 ≤ w → w ≤ 64 →
    interp tables a b w = (a * (64 - w) + b * w + 32) / 2 ^ 6 ∧ min a b ≤ interp tables a b w ∧ interp tables a b w ≤ max a b

/-- R205: the ends of a palette are its endpoints (BC6H: after finish), and it is monotone in the index. -/
def Obligations.PaletteEndsAndMonotonicity : Prop :=
  (∀ a b : Int, interp tables a b 0 = a ∧ interp tables a b 64 = b) ∧
  ∀ ip < 5, 2 ≤ ip →
    (∀ (E : Nat → Nat → Int) (r c : Nat),
      pal7 tables E r ip 0 c = E (2 * r) c ∧ pal7 tables E r ip (2 ^ ip - 1) c = E (2 * r + 1) c ∧
      (∀ j < 2 ^ ip - 1, E (2 * r) c ≤ E (2 * r + 1) c → pal7 tables E r ip j c ≤ pal7 tables E r ip (j + 1) c) ∧
      (∀ j < 2 ^ ip - 1, E (2 * r + 1) c ≤ E (2 * r) c → pal7 tables E r ip (j + 1) c ≤ pal7 tables E r ip j c)) ∧
    (∀ (d : Desc6) (sg : Bool) (q : Nat → Nat → Int) (r c : Nat), d.IP = ip →
      let u := fun e => uq6 (q e c) d.EP sg
      pal6 tables d sg q r 0 c = fin6 (u (2 * r)) sg ∧
      pal6 tables d sg q r (2 ^ ip - 1) c = fin6 (u (2 * r + 1)) sg ∧
      (∀ j < 2 ^ ip - 1, u (2 * r) ≤ u (2 * r + 1) → pal6 tables d sg q r j c ≤ pal6 tables d sg q r (j + 1) c) ∧
      (∀ j < 2 ^ ip - 1, u (2 * r + 1) ≤ u (2 * r) → pal6 tables d sg q r (j + 1) c ≤ pal6 tables d sg q r j c))

/-- R206: swapping a region's endpoints and mirroring the index leaves every palette entry unchanged. -/
def Obligations.PaletteMirror : Prop :=
  (∀ a b w : Int, interp tables a b w = interp tables b a (64 - w)) ∧
  ∀ ip < 5, 2 ≤ ip → ∀ j < 2 ^ ip, ∀ r c : Nat,
    (∀ E : Nat → Nat → Int,
      pal7 tables (fun e => E (endOf true e)) r ip (2 ^ ip - 1 - j) c = pal7 tables E r ip j c) ∧
    ∀ (d : Desc6) (sg : Bool) (q : Nat → Nat → Int), d.IP = ip →
      pal6 tables d sg (fun e => q (endOf true e)) r (2 ^ ip - 1 - j) c = pal6 tables d sg q r j c

/-- R212: the whole palette is searched, the distance returned is the least, and the lowest index that has it wins. -/
def Obligations.NearestIsTheFirstMinimum : Prop :=
  ∀ (D : Nat → Nat) (n : Nat),
    (nearest D n).1 ≤ n ∧ (nearest D n).2 = D (nearest D n).1 ∧
    (∀ k ≤ n, (nearest D n).2 ≤ D k) ∧ ∀ k < (nearest D n).1, (nearest D n).2 < D k

/-! ## Samples -/

/-- R24. -/
def Obligations.Bc7SamplePacking : Prop :=
  (∀ (x : Lane) (c : Nat), c < 4 → chan7 x c = (x.toNat / 2 ^ (8 * c) % 256 : Nat)) ∧
  (∀ x y : Lane, x.toNat % 2 ^ 32 = y.toNat % 2 ^ 32 → ∀ c < 4, chan7 x c = chan7 y c) ∧
  ∀ v : Nat → Int, (∀ c < 4, 0 ≤ v c ∧ v c ≤ 255) →
    (∀ c < 4, chan7 (pack7 v) c = v c) ∧ (pack7 v).toNat < 2 ^ 32

/-- R25, without its ranges (those are statements about inputs, R275, and outputs, R185). -/
def Obligations.Bc6hSamplePacking : Prop :=
  (∀ (x : Lane) (c : Nat), c < 3 →
    let n := x.toNat / 2 ^ (16 * c) % 65536
    chan6 false x c = n ∧ chan6 true x c = if n < 32768 then (n : Int) else (n : Int) - 65536) ∧
  (∀ x y : Lane, x.toNat % 2 ^ 48 = y.toNat % 2 ^ 48 → ∀ sg, ∀ c < 3, chan6 sg x c = chan6 sg y c) ∧
  ∀ (sg : Bool) (v : Nat → Int),
    (∀ c < 3, if sg then -32768 ≤ v c ∧ v c ≤ 32767 else 0 ≤ v c ∧ v c ≤ 65535) →
    (∀ c < 3, chan6 sg (pack6 v) c = v c) ∧ (pack6 v).toNat < 2 ^ 48

/-- R240, R276: the rotation exchanges A with the channel it names and leaves the others; done twice it is undone. -/
def Obligations.RotationIsASwap : Prop :=
  ∀ v : Nat → Int, rotate 0 v = v ∧
    (∀ rot < 4, 1 ≤ rot → rotate rot v 3 = v (rot - 1) ∧ rotate rot v (rot - 1) = v 3 ∧
      ∀ c < 3, c ≠ rot - 1 → rotate rot v c = v c) ∧
    ∀ rot < 4, rotate rot (rotate rot v) = v

/-! ## Interpreting a block -/

/-- The "Endpoint value" lines of R88 to R95. -/
def Obligations.Bc7EndpointValues : Prop :=
  ∀ (f : Bc7Fields) (e c : Nat), e < 6 → c < 3 →
    let x := cell f.ep e c 0
    let a := cell f.ep e 3 0
    refEndpoint7 0 f e c = uq7 (2 * x + rd f.pb e 0) 5 ∧
    (e < 4 → refEndpoint7 1 f e c = uq7 (2 * x + rd f.pb (e / 2) 0) 7) ∧
    refEndpoint7 2 f e c = uq7 x 5 ∧
    (e < 4 → refEndpoint7 3 f e c = uq7 (2 * x + rd f.pb e 0) 8) ∧
    refEndpoint7 4 f e c = uq7 x 5 ∧ refEndpoint7 4 f e 3 = uq7 a 6 ∧
    refEndpoint7 5 f e c = uq7 x 7 ∧ refEndpoint7 5 f e 3 = uq7 a 8 ∧
    (e < 2 → refEndpoint7 6 f e c = uq7 (2 * x + rd f.pb e 0) 8 ∧ refEndpoint7 6 f e 3 = uq7 (2 * a + rd f.pb e 0) 8) ∧
    (e < 4 → refEndpoint7 7 f e c = uq7 (2 * x + rd f.pb e 0) 6 ∧ refEndpoint7 7 f e 3 = uq7 (2 * a + rd f.pb e 0) 6) ∧
    ∀ m < 4, refEndpoint7 m f e 3 = 255

/-- R230 (R231 to R241): each of the eight BC7 modes (`bc7M0` to `bc7M7`), on every well-formed block and in every
state, completes with its sixteen pixels, the cursor at 128, and the registers R22 says the decoder writes. -/
def Obligations.Bc7BlocksDecodeToTheirTile : Prop :=
  ∀ (m : Fin 8) (f : Bc7Fields) (s : State), (Instr.bc7 m f).WF →
    ∃ t, exec (.bc7 m f) s = .next t ∧
      t.rsp = some (Response.decoded (refTile7 m f)) ∧ t.pix = refTile7 m f ∧ t.status = .ok ∧ t.ph = .d7 ∧
      t.cur = 128 ∧ t.blk = encode7 m f ∧ t.mode = m ∧ t.shape = f.shape ∧ t.rot = f.rot ∧ t.idxm = f.idxm ∧
      (∀ e < (tables.bc7 m).ne, ∀ c < (tables.bc7 m).nch, epAt t.ep e c = mergePb (tables.bc7 m) f.pb e (cell f.ep e c (0 : Nat) : Nat)) ∧
      (∀ k < (tables.bc7 m).NP, rd t.pb k 0 = rd f.pb k 0) ∧ t.ix1 = f.ix1 ∧
      (0 < (tables.bc7 m).IP2 → t.ix2 = f.ix2)

/-- R250 (R251 to R259): each of the fourteen BC6H modes (`bc6hM1` to `bc6hM14`), in the latched format. An endpoint
register the mode has no field for holds 0, its initial value (R22, R253). -/
def Obligations.Bc6hBlocksDecodeToTheirTile : Prop :=
  ∀ (k : Fin 14) (f : Bc6hFields) (s : State), (Instr.bc6h k f).WF →
    ∃ t, exec (.bc6h k f) s = .next t ∧
      t.rsp = some (Response.decoded (refTile6 (k + 1) (sgOf s.fmt) f)) ∧ t.pix = refTile6 (k + 1) (sgOf s.fmt) f ∧
      t.status = .ok ∧ t.ph = .d7 ∧ t.cur = 128 ∧ t.blk = encode6 (k + 1) f ∧ t.mode = k + 1 ∧ t.shape = f.shape ∧
      (∀ e < 6, ∀ c < 4, epAt t.ep e c =
        if e < (tables.bc6h (k + 1)).ne ∧ c < 3 then refEndpoint6 (k + 1) (sgOf s.fmt) f e c else 0) ∧
      t.ix1 = f.ix

/-- R185: the range of what a BC6H mode puts out. -/
def Obligations.Bc6hOutputRange : Prop :=
  ∀ (k : Fin 14) (f : Bc6hFields) (s t : State), (Instr.bc6h k f).WF → exec (.bc6h k f) s = .next t →
    ∀ i < 16, ∀ c < 3,
      let x := chan6 (sgOf s.fmt) (rd t.pix i 0) c
      (sgOf s.fmt = false → 0 ≤ x ∧ x ≤ 0x7BFF) ∧
      (sgOf s.fmt = true → (tables.bc6h (k + 1)).EP < 16 → -0x7BFF ≤ x ∧ x ≤ 0x7BFF) ∧
      (sgOf s.fmt = true → k.val = 13 → -0x7C00 ≤ x ∧ x ≤ 0x7BFF)

/-- R116: the five reserved selectors (`bc7Reserved`, `bc6hReserved13`, `bc6hReserved17`, `bc6hReserved1B`,
`bc6hReserved1F`) raise `MalformedBlock.ModeSelector`, with no pixels, before any field is read (R302, R312). That every
working register the raise does not write keeps what it held is the model's choice (log entry 9: the spec leaves those
values open, U13, U15), and that the host's inputs are kept is log entry 3. -/
def Obligations.ReservedSelectorsRaise : Prop :=
  ∀ s : State,
    let raised := fun B : Block =>
      ({ s with blk := B, status := .modeSelector, ph := .fault
                rsp := some (Response.statusOnly .modeSelector) } : State)
    (∀ r, exec (.bc7Reserved r) s = .next (raised (r ++ 0x00#8))) ∧
    (∀ r, exec (.bc6hReserved13 r) s = .next (raised (r ++ 0x13#5)) ∧
      exec (.bc6hReserved17 r) s = .next (raised (r ++ 0x17#5)) ∧
      exec (.bc6hReserved1B r) s = .next (raised (r ++ 0x1B#5)) ∧
      exec (.bc6hReserved1F r) s = .next (raised (r ++ 0x1F#5))) ∧
    (∀ B : Block, blockByte B 0 = 0x00#8 → exec (decode (.bc7 B)) s = .next (raised B)) ∧
    ∀ B : Block, rdbits B 0 5 ∈ [0x13, 0x17, 0x1B, 0x1F] → exec (decode (.bc6h B)) s = .next (raised B)

/-- The frame of the blocks: what interpreting one never changes (R22 "written by", R230, R250). That `tile` and, in a mode
without a second index array, `ix2`, which have no initial value in a `DEC`, keep what they held is the model's choice (log
entry 9), and that the host's inputs are kept is log entry 3. -/
def Obligations.BlockFrames : Prop :=
  ∀ (i : Instr) (s t : State), exec i s = .next t →
    ((∃ m f, i = .bc7 m f) ∨ (∃ k f, i = .bc6h k f) →
      t.op = s.op ∧ t.fmt = s.fmt ∧ t.tile = s.tile ∧ t.err = s.err ∧ t.errtot = s.errtot ∧ t.busy = s.busy ∧
      t.inputs = s.inputs) ∧
    (∀ m f, i = .bc7 m f → i.WF →
      (∀ e < 6, ∀ c < 4, (tables.bc7 m).ne ≤ e ∨ (tables.bc7 m).nch ≤ c → epAt t.ep e c = epAt s.ep e c) ∧
      (∀ k < 6, (tables.bc7 m).NP ≤ k → rd t.pb k 0 = rd s.pb k 0) ∧
      ((tables.bc7 m).IP2 = 0 → t.ix2 = s.ix2)) ∧
    (∀ k f, i = .bc6h k f →
      t.rot = s.rot ∧ t.idxm = s.idxm ∧ t.pb = s.pb ∧ t.ix2 = s.ix2)

/-! ## Commands -/

/-- R33, R22 "init", R27, R29: the meaning of a `DEC` (`decBc7`, `decBc6hUnsigned`, `decBc6hSigned`) is its acceptance,
here of every state (a step runs it only where `busy = 0`): the block and the format are latched, and the registers with an
initial value take it. That the registers without one (`tile`, `pix`, `mode`, `ix1`, `ix2`) keep what they held is the
model's choice (log entry 9), and so is that interpretation waits for the next step (log entry 4); that the host's inputs
are kept is log entry 3. -/
def Obligations.DecIsAccepted : Prop :=
  ∀ (B : Block) (s : State),
    let accepted := fun (fmt : BitVec 2) =>
      ({ s with op := 0, fmt := fmt, blk := B, shape := 0, rot := 0, idxm := 0
                ep := grid 6 4 fun _ _ => 0, pb := tab 6 fun _ => 0, err := tab 3 fun _ => 0, errtot := 0
                status := .ok, cur := 0, ph := .d0, busy := true, rsp := none } : State)
    exec (.decBc7 B) s = .next (accepted 0) ∧ exec (.decBc6hUnsigned B) s = .next (accepted 1) ∧
    exec (.decBc6hSigned B) s = .next (accepted 2)

/-- R6, R230, R250, R302: a `DEC` presented to an idle block answers with the sixteen pixels of the block, or with
`MalformedBlock.ModeSelector` where its selector is reserved, and nothing else. That it takes two steps is the model's
choice (log entry 4), and how the host's inputs reach a step is log entry 3. -/
def Obligations.DecAnswersTheReference : Prop :=
  ∀ (s : State) (c : Cmd), s.Presents c → c.op = 0 → c.fmt ≠ 3 → (s.inputs.tail.headD .quiet).rst = false →
    ∃ t u, step s = .next t ∧ step t = .next u ∧ u.rsp = some (refDecode c.fmt c.blk) ∧
      u.status = (refDecode c.fmt c.blk).status ∧ u.busy = true

/-- R272 to R284, R286, R287 with R214, R215, R218, R219: `encqBc7` and `enceBc7` of a candidate R275 passes complete
with the block, the indices, the endpoints and the errors the rules give, and the block's fields all fit. -/
def Obligations.Bc7EncodePacksTheCandidate : Prop :=
  ∀ (q : Bool) (c : Candidate) (s : State), ValidBc7 tables q c →
    let d := tables.bc7 c.mode.toNat
    let f := refFields7 q c
    ∃ t, exec (encInstr q 0 c) s = .next t ∧ t.status = .ok ∧ t.ph = .e7 ∧ t.cur = 128 ∧ t.busy = true ∧
      t.op = encOp q ∧ t.fmt = 0 ∧ f.WF c.mode.toNat ∧ t.blk = encode7 c.mode.toNat f ∧
      t.mode = c.mode.toNat ∧ t.shape = f.shape ∧ t.rot = f.rot ∧ t.idxm = f.idxm ∧
      (∀ e < 6, ∀ ch < 4, epAt t.ep e ch = refEp7 q c e ch) ∧ t.pb = f.pb ∧ t.ix1 = f.ix1 ∧
      (0 < d.IP2 → t.ix2 = f.ix2) ∧
      t.err = tab 3 (fun r => regionSum d.P f.shape r (refErr7 q c)) ∧ t.errtot = tileSum (refErr7 q c) ∧
      t.rsp = some (Response.encoded t.blk t.errtot t.err)

/-- The same of the four BC6H forms (`encqBc6hUnsigned`, `encqBc6hSigned`, `enceBc6hUnsigned`, `enceBc6hSigned`), for
a candidate that also fits its mode after the fixup (R216, R218, R279, R283, R285). -/
def Obligations.Bc6hEncodePacksTheCandidate : Prop :=
  ∀ (q : Bool) (fmt : Fin 3) (c : Candidate) (s : State), fmt ≠ 0 →
    let sg := fmt == 2
    ValidBc6h tables q sg c → FitsBc6h q sg c →
    let d := tables.bc6h c.mode.toNat
    let f := refFields6 q sg c
    ∃ t, exec (encInstr q fmt c) s = .next t ∧ t.status = .ok ∧ t.ph = .e7 ∧ t.cur = 128 ∧ t.busy = true ∧
      t.op = encOp q ∧ t.fmt = BitVec.ofNat 2 fmt ∧ f.WF c.mode.toNat ∧ t.blk = encode6 c.mode.toNat f ∧
      t.mode = c.mode.toNat ∧ t.shape = f.shape ∧ t.rot = 0 ∧ t.idxm = 0 ∧
      (∀ e < 6, ∀ ch < 4, epAt t.ep e ch = refQ6 q sg c (endOf (refSwap6 q sg c (e / 2)) e) ch) ∧
      t.pb = tab 6 (fun _ => 0) ∧ t.ix1 = f.ix ∧
      t.err = tab 3 (fun r => regionSum d.P f.shape r (fun i => (refSearch6 q sg c i).2)) ∧
      t.errtot = tileSum (fun i => (refSearch6 q sg c i).2) ∧
      t.rsp = some (Response.encoded t.blk t.errtot t.err)

/-- R307: `NoFit` is answered exactly where some field of a valid BC6H candidate does not fit, with a status and
nothing else and no block bit written; never in BC7. -/
def Obligations.NoFitExactlyWhereAFieldDoesNotFit : Prop :=
  ∀ (q : Bool) (fmt : Fin 3) (c : Candidate) (s : State),
    ∃ t, exec (encInstr q fmt c) s = .next t ∧
      (t.status = .noFit ↔ fmt ≠ 0 ∧ ValidBc6h tables q (fmt == 2) c ∧ ¬ FitsBc6h q (fmt == 2) c) ∧
      (t.status = .noFit → t.ph = .fault ∧ t.rsp = some (Response.statusOnly .noFit) ∧ t.blk = 0 ∧ t.cur = 0)

/-- R308, R275: a candidate with any operand outside its legal range is answered with `BadCandidate`, in `E0`. The rest of
the next state is what acceptance made it (R33, R22 "init"); that `pix`, `ix1` and `ix2` keep what they held, and that `mode`
holds the refused candidate's mode, is the model's choice (log entry 9: U13, U15), and that the host's inputs are kept is log
entry 3. -/
def Obligations.InvalidCandidateIsRefused : Prop :=
  ∀ (q : Bool) (fmt : Fin 3) (c : Candidate) (s : State), ¬ ValidCandidate q fmt c →
    exec (encInstr q fmt c) s =
      .next { s with op := encOp q, fmt := BitVec.ofNat 2 fmt, blk := 0, tile := c.tile, mode := c.mode.toNat
                     shape := 0, rot := 0, idxm := 0, ep := grid 6 4 fun _ _ => 0, pb := tab 6 fun _ => 0
                     err := tab 3 fun _ => 0, errtot := 0, cur := 0, busy := true
                     status := .badCandidate, ph := .fault, rsp := some (Response.statusOnly .badCandidate) }

/-- R289, R283: in BC7 a candidate with in-range operands never faults, and in BC6H modes 10 and 11 it always fits. -/
def Obligations.EncodingAlwaysHasACandidate : Prop :=
  ∀ (q : Bool) (fmt : Fin 3) (c : Candidate) (s : State), ValidCandidate q fmt c →
    (fmt = 0 ∨ c.mode = 10 ∨ c.mode = 11) →
    ∃ t B n e, exec (encInstr q fmt c) s = .next t ∧ t.status = .ok ∧ t.rsp = some (Response.encoded B n e)

/-- R278, R277: the fields and p-bits `ENCQ` chooses: a strict majority of the least-significant bits, and an encoded
endpoint that differs from the quantized one by at most 1; without p-bits the quantized value itself. -/
def Obligations.EncqPBitVote : Prop :=
  ∀ (c : Candidate) (m : Nat), m < 8 →
    let d := tables.bc7 m
    (∀ g < d.NP, pbitBc7 d true c g =
      if (voters d g).length < 2 * ((voters d g).countP fun p => quant7 d c p.1 p.2 % 2 = 1) then 1 else 0) ∧
    (∀ g < d.NP, (voters d g).length = (if m = 1 then 6 else d.nch)) ∧
    (∀ e < d.ne, ∀ ch < d.nch, 0 < d.NP →
      (2 * fieldBc7 d true c e ch + pbitBc7 d true c (d.pbOf e) - quant7 d c e ch).natAbs ≤ 1) ∧
    ∀ e < d.ne, ∀ ch < d.nch, d.NP = 0 →
      fieldBc7 d true c e ch = q7 (candEp c e ch).toNat (if ch < 3 then d.CB else d.AB)

/-- R220: after `E4` the index at every fixup pixel has its high bit clear, in BC7 (one array or two) and BC6H. -/
def Obligations.FixupClearsTheHighBit : Prop :=
  (∀ (m : Nat) (s : State), m < 8 → s.mode = m → s.shape < 2 ^ (tables.bc7 m).PB →
    (∀ i < 16, rd s.ix1 i 0 < 2 ^ (tables.bc7 m).IP ∧ (0 < (tables.bc7 m).IP2 → rd s.ix2 i 0 < 2 ^ (tables.bc7 m).IP2)) →
    (∀ r ≤ (tables.bc7 m).P,
      (rd (e4Bc7 tables s).ix1 (tables.fixup (tables.bc7 m).P s.shape r) 0).testBit ((tables.bc7 m).IP - 1) = false) ∧
    (0 < (tables.bc7 m).IP2 → (rd (e4Bc7 tables s).ix2 0 0).testBit ((tables.bc7 m).IP2 - 1) = false)) ∧
  (∀ (m : Nat) (s : State), 1 ≤ m → m < 15 → s.mode = m → s.shape < 2 ^ (tables.bc6h m).shapeBits →
    (∀ i < 16, rd s.ix1 i 0 < 2 ^ (tables.bc6h m).IP) →
    ∀ r ≤ (tables.bc6h m).P,
      (rd (e4Bc6h tables s).ix1 (tables.fixup (tables.bc6h m).P s.shape r) 0).testBit ((tables.bc6h m).IP - 1) = false)

/-- R288 in BC7: decoding the block an `ENC*` returned gives back the header it packed, and pixels whose squared
differences from the tile sum to `errtot`, and over each region to `err[r]`. -/
def Obligations.Bc7RoundTripLaw : Prop :=
  ∀ (q : Bool) (c : Candidate) (s t : State), exec (encInstr q 0 c) s = .next t → t.status = .ok →
    decode (.bc7 t.blk) = .bc7 (Fin.ofNat 8 c.mode.toNat) (refFields7 q c) ∧
    ∀ s', ∃ u, exec (decode (.bc7 t.blk)) s' = .next u ∧ u.rsp = some (Response.decoded u.pix) ∧
      u.mode = t.mode ∧ u.shape = t.shape ∧ u.rot = t.rot ∧ u.idxm = t.idxm ∧ u.ix1 = t.ix1 ∧
      tileSum (pixelError7 u.pix c.tile) = t.errtot ∧
      ∀ r < 3, regionSum (tables.bc7 c.mode.toNat).P c.shape.toNat r (pixelError7 u.pix c.tile) = rd t.err r 0

/-- R288 in BC6H. -/
def Obligations.Bc6hRoundTripLaw : Prop :=
  ∀ (q : Bool) (fmt : Fin 3) (c : Candidate) (s t : State), fmt ≠ 0 →
    exec (encInstr q fmt c) s = .next t → t.status = .ok →
    decode (.bc6h t.blk) = .bc6h (Fin.ofNat 14 (c.mode.toNat - 1)) (refFields6 q (fmt == 2) c) ∧
    ∀ s' : State, s'.fmt = BitVec.ofNat 2 fmt →
      ∃ u, exec (decode (.bc6h t.blk)) s' = .next u ∧ u.rsp = some (Response.decoded u.pix) ∧
        u.mode = t.mode ∧ u.shape = t.shape ∧ u.ix1 = t.ix1 ∧
        (∀ e < 4, ∀ ch < 3, epAt u.ep e ch = epAt t.ep e ch) ∧
        tileSum (pixelError6 (fmt == 2) u.pix c.tile) = t.errtot ∧
        ∀ r < 3, regionSum (tables.bc6h c.mode.toNat).P c.shape.toNat r (pixelError6 (fmt == 2) u.pix c.tile) = rd t.err r 0

/-- The frame of the six `ENC*` forms, and what they latch (R33). That the pixel buffer, and the second index array in a
mode that has none, keep what they held is the model's choice (log entry 9): the spec lets a register without an initial
value hold anything until it is written (R23). That the host's inputs are kept is log entry 3. -/
def Obligations.EncodeFrames : Prop :=
  ∀ (q : Bool) (fmt : Fin 3) (c : Candidate) (s t : State), exec (encInstr q fmt c) s = .next t →
    t.pix = s.pix ∧ t.inputs = s.inputs ∧ t.tile = c.tile ∧ t.op = encOp q ∧ t.fmt = BitVec.ofNat 2 fmt ∧
    t.busy = true ∧ ((fmt ≠ 0 ∨ (tables.bc7 c.mode.toNat).IP2 = 0) → t.ix2 = s.ix2)

/-- R309: a reserved `op` or `fmt` (`cmdReservedOp`, `cmdReservedFmt`) is accepted and answered with `BadCommand`, before
any other field is looked at; and exactly the commands with `op = 3` or `fmt = 3` are these. What the working registers
hold after it is the model's choice (log entries 8 and 9), and that the host's inputs are kept is log entry 3. -/
def Obligations.ReservedCommandsAreRefused : Prop :=
  (∀ c : Cmd, (c.op = 3 ∨ c.fmt = 3) ↔
    (decode (.cmd c) = .cmdReservedOp c.fmt ∨ decode (.cmd c) = .cmdReservedFmt c.op)) ∧
  ∀ (s : State) (x : BitVec 2),
    let refused := fun (op fmt : BitVec 2) =>
      ({ s with op := op, fmt := fmt, shape := 0, rot := 0, idxm := 0
                ep := grid 6 4 fun _ _ => 0, pb := tab 6 fun _ => 0, err := tab 3 fun _ => 0, errtot := 0
                cur := 0, busy := true
                status := .badCommand, ph := .fault, rsp := some (Response.statusOnly .badCommand) } : State)
    exec (.cmdReservedOp x) s = .next (refused 3 x) ∧ exec (.cmdReservedFmt x) s = .next (refused x 3)

/-! ## Faults -/

/-- R313, over arbitrary tables: a decode fault comes before any pixel is written, a refusal of a candidate before any
block bit is written, and no fault carries data. -/
def Obligations.FaultsArePrecise : Prop :=
  ∀ (T : Tables) (q : Bool) (c : Candidate) (s : State),
    (∀ u, u = decodeBc7 T s ∨ u = decodeBc6h T s → u.ph = .fault →
      u.pix = s.pix ∧ u.rsp = some (Response.statusOnly u.status)) ∧
    (∀ u, u = encodeBc7 T q c s ∨ u = encodeBc6h T q c s → u.ph = .fault →
      (u.status ≠ .cursorRange → u.blk = s.blk) ∧ u.rsp = some (Response.statusOnly u.status))

/-- R337, R27, R241, R259, R287, over arbitrary tables: every operation ends with a response, in `D7` or `E7` with
status `OK` and the cursor at 128, or in `FAULT` with the status alone. -/
def Obligations.EveryOperationEnds : Prop :=
  ∀ (T : Tables) (q : Bool) (c : Candidate) (s : State),
    (∀ u, u = decodeBc7 T s ∨ u = decodeBc6h T s →
      (u.ph = .d7 ∧ u.status = .ok ∧ u.cur = 128 ∧ u.rsp = some (Response.decoded u.pix)) ∨
      (u.ph = .fault ∧ u.status ∈ [.modeSelector, .headerCount, .indexOverrun, .cursorRange] ∧
        u.rsp = some (Response.statusOnly u.status))) ∧
    (∀ u, u = encodeBc7 T q c s ∨ u = encodeBc6h T q c s →
      (u.ph = .e7 ∧ u.status = .ok ∧ u.cur = 128 ∧ u.rsp = some (Response.encoded u.blk u.errtot u.err)) ∨
      (u.ph = .fault ∧ u.status ∈ [.noFit, .badCandidate, .cursorRange] ∧
        u.rsp = some (Response.statusOnly u.status)))

/-- R303 to R306, R118: with the supplied tables no instruction ends with `HeaderCount`, `IndexOverrun` or
`CursorRange`, and none with `NoCandidate`. -/
def Obligations.TableFaultsAreUnreachable : Prop :=
  ∀ (i : Instr) (s : State), i.WF →
    ∃ t, exec i s = .next t ∧ t.status ∈ [.ok, .modeSelector, .noFit, .badCandidate, .badCommand]

/-! ## The step -/

/-- A step of an idle block runs the instruction the presented command decodes to; a step of a block in which a `DEC`
waits runs the instruction the latched block decodes to (R33, R65). Around it the step only reads the port inputs
(log entry 3). That a step runs a whole `ENC*`, and a waiting block in a step of its own, is the model's choice (R337, log
entry 4). -/
def Obligations.StepRunsTheDecodedInstruction : Prop :=
  (∀ (s : State) (c : Cmd), s.Presents c → step s = exec (decode (.cmd c)) { s with inputs := s.inputs.tail }) ∧
  ∀ s : State, s.busy = true → s.rsp = none → s.ph = .d0 → s.input.rst = false →
    (s.fmt = 0 → step s = exec (decode (.bc7 s.blk)) { s with inputs := s.inputs.tail }) ∧
    (s.fmt = 1 ∨ s.fmt = 2 → step s = exec (decode (.bc6h s.blk)) { s with inputs := s.inputs.tail })

/-- R333: while the block is busy a presented command has no effect whatever: it is not accepted, queued or merged. How
the host's inputs reach a step is the model's choice (log entry 3). -/
def Obligations.BusyIgnoresCommands : Prop :=
  ∀ (s : State) (rst rdy : Bool) (c : Option Cmd) (rest : List PortIn), s.busy = true →
    s.cmdReady = false ∧
    step { s with inputs := ⟨rst, c, rdy⟩ :: rest } = step { s with inputs := ⟨rst, none, rdy⟩ :: rest }

/-- R33, R314, R334: a response stays as it is until the host takes it; taking it, after a fault as after a success,
clears `rsp_valid` and `busy` and makes the phase `IDLE`. That every working register keeps its value meanwhile and when
the response is taken is the model's choice (log entry 9: the spec leaves those values open, U13, U15), and so is that the
step reads one entry of the host's inputs (log entry 3). -/
def Obligations.ResponseStaysUntilTaken : Prop :=
  ∀ (s : State) (r : Response), s.rsp = some r → s.input.rst = false →
    (s.input.rspReady = false → step s = .next { s with inputs := s.inputs.tail }) ∧
    (s.input.rspReady = true →
      step s = .next { s with inputs := s.inputs.tail, rsp := none, busy := false, ph := .idle })

/-- R36, R330: reset, in any state, abandons what is running without a response. (The values of the registers R330
leaves unspecified are the model's choice, log entry 2, and are not stated. That the step reads one entry of the host's
inputs is log entry 3.) -/
def Obligations.ResetAbandonsTheOperation : Prop :=
  ∀ s : State, s.input.rst = true →
    ∃ t, step s = .next t ∧ t.busy = false ∧ t.rsp = none ∧ t.ph = .idle ∧ t.inputs = s.inputs.tail

/-- R31, R20, R23, R36, R32: there is one response to a command, and it depends on the operands of its operation alone:
for two `DEC` commands with equal `fmt` and `blk` it is the same, whatever their ignored fields hold, and so for two
`ENC*` commands with equal `fmt`, candidate and tile. It does not depend on any register, whatever ran before, nor on what
the host does on its ports while the operation runs (R63), reset excepted. That it stands after `opSteps` steps is the
model's choice (log entry 4), and how the host's inputs reach a step is log entry 3. -/
def Obligations.EveryCommandHasOneResponse : Prop :=
  ∀ c : Cmd, ∃ r : Response, ∀ (d : Cmd) (s : State), SameOperands c d → s.Presents d → (∀ p ∈ s.inputs, p.rst = false) →
    ∃ t : State, (core.run (opSteps d) s : Host.Outcome State Fault Refusal) = .next t ∧ t.rsp = some r ∧ t.busy = true

/-- The machine right after reset is coherent, and its registers are in range. (That the registers R36 leaves
unspecified hold zero is the model's choice, log entry 2.) -/
def Obligations.ResetIsCoherent : Prop := State.reset.Coherent ∧ State.reset.InRange

/-- R28, R33, R34, R306: handshake, phase and response always agree. That a busy block without a response stands only at
`D0` with a `DEC` of a legal format (the clause `waiting` of `State.Coherent`), and so that from a coherent state a step
always answers a next state and never the fault `outOfPhase`, is the model's choice of what a step is (R337, log entry 4). -/
def Obligations.StepKeepsCoherence : Prop := ∀ s : State, s.Coherent → ∃ t, step s = .next t ∧ t.Coherent

/-- R22, R27, R217: every register stays in the range its width is for. -/
def Obligations.StepKeepsRegistersInRange : Prop :=
  ∀ s t : State, s.InRange → step s = .next t → t.InRange

end
end

