-- ==== Sys2Proof/Laws/Arrays.lean ====
section
/-! SUPPORT. Reading the arrays of Word.lean: one lemma for each way to build one. -/

namespace Sys2Proof

variable {α : Type} {n a b : Nat}

@[simp] theorem rd_tab (f : Nat → α) (i : Nat) (d : α) (h : i < n) : rd (tab n f) i d = f i := by
  simp [rd, tab, h]

theorem rd_of_le (v : Vector α n) (i : Nat) (d : α) (h : n ≤ i) : rd v i d = d := by
  simp [rd, Nat.not_lt.mpr h]

/-- A read of a tabulated array, inside its length or not. -/
theorem rd_tab_eq (f : Nat → α) (i : Nat) (d : α) : rd (tab n f) i d = if i < n then f i else d := by
  by_cases h : i < n <;> simp [rd, tab, h]

@[simp] theorem cell_grid (f : Nat → Nat → α) (i j : Nat) (d : α) (hi : i < a) (hj : j < b) :
    cell (grid a b f) i j d = f i j := by
  simp [cell, grid, hi, hj]

/-- A read of a tabulated array of arrays, inside its size or not. -/
theorem cell_grid_eq (f : Nat → Nat → α) (i j : Nat) (d : α) :
    cell (grid a b f) i j d = if i < a ∧ j < b then f i j else d := by
  by_cases hi : i < a <;> by_cases hj : j < b <;> simp [cell, grid, rd_tab_eq, hi, hj]

/-- Arrays with equal reads are equal. -/
theorem vector_ext_rd (v w : Vector α n) (d : α) (h : ∀ i < n, rd v i d = rd w i d) : v = w := by
  ext i hi
  simpa [rd, hi] using h i hi

/-- An array is the tabulation of its reads. -/
theorem tab_rd (v : Vector α n) (d : α) : tab n (fun i => rd v i d) = v :=
  vector_ext_rd _ _ d fun i hi => rd_tab _ i d hi

/-- An array of arrays is the tabulation of its reads. -/
theorem grid_cell (v : Vector (Vector α b) a) (d : α) : grid a b (fun i j => cell v i j d) = v := by
  refine vector_ext_rd _ _ (tab b fun _ => d) fun i hi => ?_
  rw [grid, rd_tab _ i _ hi]
  exact tab_rd _ d

end Sys2Proof
end

