-- ==== Sys2Proof/Laws/Cursor.lean ====
section
/-! SUPPORT. What the bit access of Machine/Cursor.lean does, one turn of each loop at a time. -/

namespace Sys2Proof

theorem rdbits_zero (B : Block) (off : Nat) : rdbits B off 0 = 0 := rfl

/-- The last turn of the loop of R141. -/
theorem rdbits_succ (B : Block) (off w : Nat) :
    rdbits B off (w + 1) = rdbits B off w ||| (bit B (off + w) <<< w) := by
  simp [rdbits, List.range_succ]

theorem wrbits_zero (B : Block) (off v : Nat) : wrbits B off 0 v = B := rfl

/-- The last turn of the loop of R142. -/
theorem wrbits_succ (B : Block) (off w v : Nat) :
    wrbits B off (w + 1) v = putBit (wrbits B off w v) (off + w) (v.testBit w) := by
  simp [wrbits, List.range_succ]

/-- One bit written: that bit has the value, every other bit keeps its own. -/
theorem getLsbD_putBit (B : Block) (n : Nat) (x : Bool) (i : Nat) :
    (putBit B n x).getLsbD i = if i = n then (decide (n < 128) && x) else B.getLsbD i := by
  by_cases hi : i < 128
  · by_cases h : i = n
    · subst h
      cases x <;> simp [putBit, hi]
    · by_cases hn : i < n
      · cases x <;> simp [putBit, hi, hn, h]
      · have h0 : i - n ≠ 0 := by omega
        cases x <;> simp [putBit, hi, hn, h, h0]
  · have hB : B.getLsbD i = false := BitVec.getLsbD_of_ge _ _ (by omega)
    have hp : (putBit B n x).getLsbD i = false := BitVec.getLsbD_of_ge _ _ (by omega)
    rw [hp, hB]
    by_cases h : i = n
    · subst h; simp; omega
    · simp [h]

theorem readAll_cons (B : Block) (w : Nat) (ws : List Nat) (off : Nat) :
    readAll B (w :: ws) off = rdbits B off w :: readAll B ws (off + w) := rfl

theorem readAll_length (B : Block) (ws : List Nat) (off : Nat) : (readAll B ws off).length = ws.length := by
  induction ws generalizing off with
  | nil => rfl
  | cons w ws ih => simp [readAll, ih]

/-- Reading runs one after the other is reading them as one run. -/
theorem readAll_append (B : Block) (ws vs : List Nat) (off : Nat) :
    readAll B (ws ++ vs) off = readAll B ws off ++ readAll B vs (off + totalWidth ws) := by
  induction ws generalizing off with
  | nil => simp [readAll, totalWidth]
  | cons w ws ih => simp [readAll, totalWidth, ih, Nat.add_assoc]

theorem totalWidth_append (ws vs : List Nat) : totalWidth (ws ++ vs) = totalWidth ws + totalWidth vs := by
  induction ws with
  | nil => simp [totalWidth]
  | cons w ws ih => simp [totalWidth, ih, Nat.add_assoc]

/-- Writing runs one after the other is writing them as one run. -/
theorem writeAll_append (fs gs : List (Nat × Nat)) (B : Block) (off : Nat) :
    writeAll (fs ++ gs) B off = writeAll gs (writeAll fs B off) (off + totalWidth (fs.map (·.1))) := by
  induction fs generalizing B off with
  | nil => simp [writeAll, totalWidth]
  | cons p fs ih => obtain ⟨w, v⟩ := p; simp [writeAll, totalWidth, ih, Nat.add_assoc]

/-- A field write leaves the bits below the field alone. -/
theorem getLsbD_wrbits_below (B : Block) (off w v n : Nat) (h : n < off) :
    (wrbits B off w v).getLsbD n = B.getLsbD n := by
  induction w with
  | zero => rfl
  | succ w ih =>
    rw [wrbits_succ, getLsbD_putBit, if_neg (by omega), ih]

/-- A run of field writes leaves the bits below it alone. -/
theorem getLsbD_writeAll_below (fs : List (Nat × Nat)) (B : Block) (off n : Nat) (h : n < off) :
    (writeAll fs B off).getLsbD n = B.getLsbD n := by
  induction fs generalizing B off with
  | nil => rfl
  | cons p fs ih =>
    obtain ⟨w, v⟩ := p
    rw [writeAll, ih _ _ (by omega), getLsbD_wrbits_below _ _ _ _ _ h]

/-- The same of the low bits as a number. -/
theorem writeAll_toNat_mod (fs : List (Nat × Nat)) (B : Block) (off k : Nat) (h : k ≤ off) :
    (writeAll fs B off).toNat % 2 ^ k = B.toNat % 2 ^ k := by
  apply Nat.eq_of_testBit_eq
  intro i
  simp only [Nat.testBit_mod_two_pow, BitVec.testBit_toNat]
  by_cases hi : i < k
  · rw [getLsbD_writeAll_below _ _ _ _ (by omega)]
  · simp [hi]

end Sys2Proof
end

