-- ==== Sys2Proof/Laws/State.lean ====
section
/-! SUPPORT. What each update of the state does to each field: one lemma per field per update, all true by
unfolding. `State.resetPort` needs no such list: it is the constant `State.reset` but for the host's inputs. -/

namespace Sys2Proof.Machine

/-! ## `State.raise` -/

@[simp] theorem State.raise_op (s : State) (c : Status) : (s.raise c).op = s.op := rfl
@[simp] theorem State.raise_fmt (s : State) (c : Status) : (s.raise c).fmt = s.fmt := rfl
@[simp] theorem State.raise_blk (s : State) (c : Status) : (s.raise c).blk = s.blk := rfl
@[simp] theorem State.raise_tile (s : State) (c : Status) : (s.raise c).tile = s.tile := rfl
@[simp] theorem State.raise_pix (s : State) (c : Status) : (s.raise c).pix = s.pix := rfl
@[simp] theorem State.raise_mode (s : State) (c : Status) : (s.raise c).mode = s.mode := rfl
@[simp] theorem State.raise_shape (s : State) (c : Status) : (s.raise c).shape = s.shape := rfl
@[simp] theorem State.raise_rot (s : State) (c : Status) : (s.raise c).rot = s.rot := rfl
@[simp] theorem State.raise_idxm (s : State) (c : Status) : (s.raise c).idxm = s.idxm := rfl
@[simp] theorem State.raise_ep (s : State) (c : Status) : (s.raise c).ep = s.ep := rfl
@[simp] theorem State.raise_pb (s : State) (c : Status) : (s.raise c).pb = s.pb := rfl
@[simp] theorem State.raise_ix1 (s : State) (c : Status) : (s.raise c).ix1 = s.ix1 := rfl
@[simp] theorem State.raise_ix2 (s : State) (c : Status) : (s.raise c).ix2 = s.ix2 := rfl
@[simp] theorem State.raise_err (s : State) (c : Status) : (s.raise c).err = s.err := rfl
@[simp] theorem State.raise_errtot (s : State) (c : Status) : (s.raise c).errtot = s.errtot := rfl
@[simp] theorem State.raise_status (s : State) (c : Status) : (s.raise c).status = c := rfl
@[simp] theorem State.raise_cur (s : State) (c : Status) : (s.raise c).cur = s.cur := rfl
@[simp] theorem State.raise_ph (s : State) (c : Status) : (s.raise c).ph = .fault := rfl
@[simp] theorem State.raise_busy (s : State) (c : Status) : (s.raise c).busy = s.busy := rfl
@[simp] theorem State.raise_rsp (s : State) (c : Status) : (s.raise c).rsp = some (Response.statusOnly c) := rfl
@[simp] theorem State.raise_inputs (s : State) (c : Status) : (s.raise c).inputs = s.inputs := rfl

/-! ## `State.accept` -/

@[simp] theorem State.accept_op (s : State) (o f : BitVec 2) : (s.accept o f).op = o := rfl
@[simp] theorem State.accept_fmt (s : State) (o f : BitVec 2) : (s.accept o f).fmt = f := rfl
@[simp] theorem State.accept_blk (s : State) (o f : BitVec 2) : (s.accept o f).blk = s.blk := rfl
@[simp] theorem State.accept_tile (s : State) (o f : BitVec 2) : (s.accept o f).tile = s.tile := rfl
@[simp] theorem State.accept_pix (s : State) (o f : BitVec 2) : (s.accept o f).pix = s.pix := rfl
@[simp] theorem State.accept_mode (s : State) (o f : BitVec 2) : (s.accept o f).mode = s.mode := rfl
@[simp] theorem State.accept_shape (s : State) (o f : BitVec 2) : (s.accept o f).shape = 0 := rfl
@[simp] theorem State.accept_rot (s : State) (o f : BitVec 2) : (s.accept o f).rot = 0 := rfl
@[simp] theorem State.accept_idxm (s : State) (o f : BitVec 2) : (s.accept o f).idxm = 0 := rfl
@[simp] theorem State.accept_ep (s : State) (o f : BitVec 2) : (s.accept o f).ep = grid 6 4 fun _ _ => 0 := rfl
@[simp] theorem State.accept_pb (s : State) (o f : BitVec 2) : (s.accept o f).pb = tab 6 fun _ => 0 := rfl
@[simp] theorem State.accept_ix1 (s : State) (o f : BitVec 2) : (s.accept o f).ix1 = s.ix1 := rfl
@[simp] theorem State.accept_ix2 (s : State) (o f : BitVec 2) : (s.accept o f).ix2 = s.ix2 := rfl
@[simp] theorem State.accept_err (s : State) (o f : BitVec 2) : (s.accept o f).err = tab 3 fun _ => 0 := rfl
@[simp] theorem State.accept_errtot (s : State) (o f : BitVec 2) : (s.accept o f).errtot = 0 := rfl
@[simp] theorem State.accept_status (s : State) (o f : BitVec 2) : (s.accept o f).status = .ok := rfl
@[simp] theorem State.accept_cur (s : State) (o f : BitVec 2) : (s.accept o f).cur = 0 := rfl
@[simp] theorem State.accept_ph (s : State) (o f : BitVec 2) : (s.accept o f).ph = s.ph := rfl
@[simp] theorem State.accept_busy (s : State) (o f : BitVec 2) : (s.accept o f).busy = true := rfl
@[simp] theorem State.accept_rsp (s : State) (o f : BitVec 2) : (s.accept o f).rsp = none := rfl
@[simp] theorem State.accept_inputs (s : State) (o f : BitVec 2) : (s.accept o f).inputs = s.inputs := rfl

/-! ## `State.acceptDec` -/

@[simp] theorem State.acceptDec_op (s : State) (f : BitVec 2) (B : Block) : (s.acceptDec f B).op = 0 := rfl
@[simp] theorem State.acceptDec_fmt (s : State) (f : BitVec 2) (B : Block) : (s.acceptDec f B).fmt = f := rfl
@[simp] theorem State.acceptDec_blk (s : State) (f : BitVec 2) (B : Block) : (s.acceptDec f B).blk = B := rfl
@[simp] theorem State.acceptDec_tile (s : State) (f : BitVec 2) (B : Block) : (s.acceptDec f B).tile = s.tile := rfl
@[simp] theorem State.acceptDec_pix (s : State) (f : BitVec 2) (B : Block) : (s.acceptDec f B).pix = s.pix := rfl
@[simp] theorem State.acceptDec_mode (s : State) (f : BitVec 2) (B : Block) : (s.acceptDec f B).mode = s.mode := rfl
@[simp] theorem State.acceptDec_shape (s : State) (f : BitVec 2) (B : Block) : (s.acceptDec f B).shape = 0 := rfl
@[simp] theorem State.acceptDec_rot (s : State) (f : BitVec 2) (B : Block) : (s.acceptDec f B).rot = 0 := rfl
@[simp] theorem State.acceptDec_idxm (s : State) (f : BitVec 2) (B : Block) : (s.acceptDec f B).idxm = 0 := rfl
@[simp] theorem State.acceptDec_ep (s : State) (f : BitVec 2) (B : Block) : (s.acceptDec f B).ep = grid 6 4 fun _ _ => 0 := rfl
@[simp] theorem State.acceptDec_pb (s : State) (f : BitVec 2) (B : Block) : (s.acceptDec f B).pb = tab 6 fun _ => 0 := rfl
@[simp] theorem State.acceptDec_ix1 (s : State) (f : BitVec 2) (B : Block) : (s.acceptDec f B).ix1 = s.ix1 := rfl
@[simp] theorem State.acceptDec_ix2 (s : State) (f : BitVec 2) (B : Block) : (s.acceptDec f B).ix2 = s.ix2 := rfl
@[simp] theorem State.acceptDec_err (s : State) (f : BitVec 2) (B : Block) : (s.acceptDec f B).err = tab 3 fun _ => 0 := rfl
@[simp] theorem State.acceptDec_errtot (s : State) (f : BitVec 2) (B : Block) : (s.acceptDec f B).errtot = 0 := rfl
@[simp] theorem State.acceptDec_status (s : State) (f : BitVec 2) (B : Block) : (s.acceptDec f B).status = .ok := rfl
@[simp] theorem State.acceptDec_cur (s : State) (f : BitVec 2) (B : Block) : (s.acceptDec f B).cur = 0 := rfl
@[simp] theorem State.acceptDec_ph (s : State) (f : BitVec 2) (B : Block) : (s.acceptDec f B).ph = .d0 := rfl
@[simp] theorem State.acceptDec_busy (s : State) (f : BitVec 2) (B : Block) : (s.acceptDec f B).busy = true := rfl
@[simp] theorem State.acceptDec_rsp (s : State) (f : BitVec 2) (B : Block) : (s.acceptDec f B).rsp = none := rfl
@[simp] theorem State.acceptDec_inputs (s : State) (f : BitVec 2) (B : Block) : (s.acceptDec f B).inputs = s.inputs := rfl

/-! ## `State.acceptEnc` -/

@[simp] theorem State.acceptEnc_op (s : State) (o f : BitVec 2) (c : Candidate) : (s.acceptEnc o f c).op = o := rfl
@[simp] theorem State.acceptEnc_fmt (s : State) (o f : BitVec 2) (c : Candidate) : (s.acceptEnc o f c).fmt = f := rfl
@[simp] theorem State.acceptEnc_blk (s : State) (o f : BitVec 2) (c : Candidate) : (s.acceptEnc o f c).blk = 0 := rfl
@[simp] theorem State.acceptEnc_tile (s : State) (o f : BitVec 2) (c : Candidate) : (s.acceptEnc o f c).tile = c.tile := rfl
@[simp] theorem State.acceptEnc_pix (s : State) (o f : BitVec 2) (c : Candidate) : (s.acceptEnc o f c).pix = s.pix := rfl
@[simp] theorem State.acceptEnc_mode (s : State) (o f : BitVec 2) (c : Candidate) : (s.acceptEnc o f c).mode = c.mode.toNat := rfl
@[simp] theorem State.acceptEnc_shape (s : State) (o f : BitVec 2) (c : Candidate) : (s.acceptEnc o f c).shape = 0 := rfl
@[simp] theorem State.acceptEnc_rot (s : State) (o f : BitVec 2) (c : Candidate) : (s.acceptEnc o f c).rot = 0 := rfl
@[simp] theorem State.acceptEnc_idxm (s : State) (o f : BitVec 2) (c : Candidate) : (s.acceptEnc o f c).idxm = 0 := rfl
@[simp] theorem State.acceptEnc_ep (s : State) (o f : BitVec 2) (c : Candidate) : (s.acceptEnc o f c).ep = grid 6 4 fun _ _ => 0 := rfl
@[simp] theorem State.acceptEnc_pb (s : State) (o f : BitVec 2) (c : Candidate) : (s.acceptEnc o f c).pb = tab 6 fun _ => 0 := rfl
@[simp] theorem State.acceptEnc_ix1 (s : State) (o f : BitVec 2) (c : Candidate) : (s.acceptEnc o f c).ix1 = s.ix1 := rfl
@[simp] theorem State.acceptEnc_ix2 (s : State) (o f : BitVec 2) (c : Candidate) : (s.acceptEnc o f c).ix2 = s.ix2 := rfl
@[simp] theorem State.acceptEnc_err (s : State) (o f : BitVec 2) (c : Candidate) : (s.acceptEnc o f c).err = tab 3 fun _ => 0 := rfl
@[simp] theorem State.acceptEnc_errtot (s : State) (o f : BitVec 2) (c : Candidate) : (s.acceptEnc o f c).errtot = 0 := rfl
@[simp] theorem State.acceptEnc_status (s : State) (o f : BitVec 2) (c : Candidate) : (s.acceptEnc o f c).status = .ok := rfl
@[simp] theorem State.acceptEnc_cur (s : State) (o f : BitVec 2) (c : Candidate) : (s.acceptEnc o f c).cur = 0 := rfl
@[simp] theorem State.acceptEnc_ph (s : State) (o f : BitVec 2) (c : Candidate) : (s.acceptEnc o f c).ph = .e0 := rfl
@[simp] theorem State.acceptEnc_busy (s : State) (o f : BitVec 2) (c : Candidate) : (s.acceptEnc o f c).busy = true := rfl
@[simp] theorem State.acceptEnc_rsp (s : State) (o f : BitVec 2) (c : Candidate) : (s.acceptEnc o f c).rsp = none := rfl
@[simp] theorem State.acceptEnc_inputs (s : State) (o f : BitVec 2) (c : Candidate) : (s.acceptEnc o f c).inputs = s.inputs := rfl

/-! ## `State.acceptBad` -/

@[simp] theorem State.acceptBad_op (s : State) (o f : BitVec 2) : (s.acceptBad o f).op = o := rfl
@[simp] theorem State.acceptBad_fmt (s : State) (o f : BitVec 2) : (s.acceptBad o f).fmt = f := rfl
@[simp] theorem State.acceptBad_blk (s : State) (o f : BitVec 2) : (s.acceptBad o f).blk = s.blk := rfl
@[simp] theorem State.acceptBad_tile (s : State) (o f : BitVec 2) : (s.acceptBad o f).tile = s.tile := rfl
@[simp] theorem State.acceptBad_pix (s : State) (o f : BitVec 2) : (s.acceptBad o f).pix = s.pix := rfl
@[simp] theorem State.acceptBad_mode (s : State) (o f : BitVec 2) : (s.acceptBad o f).mode = s.mode := rfl
@[simp] theorem State.acceptBad_shape (s : State) (o f : BitVec 2) : (s.acceptBad o f).shape = 0 := rfl
@[simp] theorem State.acceptBad_rot (s : State) (o f : BitVec 2) : (s.acceptBad o f).rot = 0 := rfl
@[simp] theorem State.acceptBad_idxm (s : State) (o f : BitVec 2) : (s.acceptBad o f).idxm = 0 := rfl
@[simp] theorem State.acceptBad_ep (s : State) (o f : BitVec 2) : (s.acceptBad o f).ep = grid 6 4 fun _ _ => 0 := rfl
@[simp] theorem State.acceptBad_pb (s : State) (o f : BitVec 2) : (s.acceptBad o f).pb = tab 6 fun _ => 0 := rfl
@[simp] theorem State.acceptBad_ix1 (s : State) (o f : BitVec 2) : (s.acceptBad o f).ix1 = s.ix1 := rfl
@[simp] theorem State.acceptBad_ix2 (s : State) (o f : BitVec 2) : (s.acceptBad o f).ix2 = s.ix2 := rfl
@[simp] theorem State.acceptBad_err (s : State) (o f : BitVec 2) : (s.acceptBad o f).err = tab 3 fun _ => 0 := rfl
@[simp] theorem State.acceptBad_errtot (s : State) (o f : BitVec 2) : (s.acceptBad o f).errtot = 0 := rfl
@[simp] theorem State.acceptBad_status (s : State) (o f : BitVec 2) : (s.acceptBad o f).status = .badCommand := rfl
@[simp] theorem State.acceptBad_cur (s : State) (o f : BitVec 2) : (s.acceptBad o f).cur = 0 := rfl
@[simp] theorem State.acceptBad_ph (s : State) (o f : BitVec 2) : (s.acceptBad o f).ph = .fault := rfl
@[simp] theorem State.acceptBad_busy (s : State) (o f : BitVec 2) : (s.acceptBad o f).busy = true := rfl
@[simp] theorem State.acceptBad_rsp (s : State) (o f : BitVec 2) : (s.acceptBad o f).rsp = some (Response.statusOnly .badCommand) := rfl
@[simp] theorem State.acceptBad_inputs (s : State) (o f : BitVec 2) : (s.acceptBad o f).inputs = s.inputs := rfl

/-! ## `State.respondDec` -/

@[simp] theorem State.respondDec_op (s : State) : (s.respondDec).op = s.op := rfl
@[simp] theorem State.respondDec_fmt (s : State) : (s.respondDec).fmt = s.fmt := rfl
@[simp] theorem State.respondDec_blk (s : State) : (s.respondDec).blk = s.blk := rfl
@[simp] theorem State.respondDec_tile (s : State) : (s.respondDec).tile = s.tile := rfl
@[simp] theorem State.respondDec_pix (s : State) : (s.respondDec).pix = s.pix := rfl
@[simp] theorem State.respondDec_mode (s : State) : (s.respondDec).mode = s.mode := rfl
@[simp] theorem State.respondDec_shape (s : State) : (s.respondDec).shape = s.shape := rfl
@[simp] theorem State.respondDec_rot (s : State) : (s.respondDec).rot = s.rot := rfl
@[simp] theorem State.respondDec_idxm (s : State) : (s.respondDec).idxm = s.idxm := rfl
@[simp] theorem State.respondDec_ep (s : State) : (s.respondDec).ep = s.ep := rfl
@[simp] theorem State.respondDec_pb (s : State) : (s.respondDec).pb = s.pb := rfl
@[simp] theorem State.respondDec_ix1 (s : State) : (s.respondDec).ix1 = s.ix1 := rfl
@[simp] theorem State.respondDec_ix2 (s : State) : (s.respondDec).ix2 = s.ix2 := rfl
@[simp] theorem State.respondDec_err (s : State) : (s.respondDec).err = s.err := rfl
@[simp] theorem State.respondDec_errtot (s : State) : (s.respondDec).errtot = s.errtot := rfl
@[simp] theorem State.respondDec_status (s : State) : (s.respondDec).status = .ok := rfl
@[simp] theorem State.respondDec_cur (s : State) : (s.respondDec).cur = s.cur := rfl
@[simp] theorem State.respondDec_ph (s : State) : (s.respondDec).ph = .d7 := rfl
@[simp] theorem State.respondDec_busy (s : State) : (s.respondDec).busy = s.busy := rfl
@[simp] theorem State.respondDec_rsp (s : State) : (s.respondDec).rsp = some (Response.decoded s.pix) := rfl
@[simp] theorem State.respondDec_inputs (s : State) : (s.respondDec).inputs = s.inputs := rfl

/-! ## `State.respondEnc` -/

@[simp] theorem State.respondEnc_op (s : State) : (s.respondEnc).op = s.op := rfl
@[simp] theorem State.respondEnc_fmt (s : State) : (s.respondEnc).fmt = s.fmt := rfl
@[simp] theorem State.respondEnc_blk (s : State) : (s.respondEnc).blk = s.blk := rfl
@[simp] theorem State.respondEnc_tile (s : State) : (s.respondEnc).tile = s.tile := rfl
@[simp] theorem State.respondEnc_pix (s : State) : (s.respondEnc).pix = s.pix := rfl
@[simp] theorem State.respondEnc_mode (s : State) : (s.respondEnc).mode = s.mode := rfl
@[simp] theorem State.respondEnc_shape (s : State) : (s.respondEnc).shape = s.shape := rfl
@[simp] theorem State.respondEnc_rot (s : State) : (s.respondEnc).rot = s.rot := rfl
@[simp] theorem State.respondEnc_idxm (s : State) : (s.respondEnc).idxm = s.idxm := rfl
@[simp] theorem State.respondEnc_ep (s : State) : (s.respondEnc).ep = s.ep := rfl
@[simp] theorem State.respondEnc_pb (s : State) : (s.respondEnc).pb = s.pb := rfl
@[simp] theorem State.respondEnc_ix1 (s : State) : (s.respondEnc).ix1 = s.ix1 := rfl
@[simp] theorem State.respondEnc_ix2 (s : State) : (s.respondEnc).ix2 = s.ix2 := rfl
@[simp] theorem State.respondEnc_err (s : State) : (s.respondEnc).err = s.err := rfl
@[simp] theorem State.respondEnc_errtot (s : State) : (s.respondEnc).errtot = s.errtot := rfl
@[simp] theorem State.respondEnc_status (s : State) : (s.respondEnc).status = .ok := rfl
@[simp] theorem State.respondEnc_cur (s : State) : (s.respondEnc).cur = s.cur := rfl
@[simp] theorem State.respondEnc_ph (s : State) : (s.respondEnc).ph = .e7 := rfl
@[simp] theorem State.respondEnc_busy (s : State) : (s.respondEnc).busy = s.busy := rfl
@[simp] theorem State.respondEnc_rsp (s : State) : (s.respondEnc).rsp = some (Response.encoded s.blk s.errtot s.err) := rfl
@[simp] theorem State.respondEnc_inputs (s : State) : (s.respondEnc).inputs = s.inputs := rfl

/-! ## `State.takeResponse` -/

@[simp] theorem State.takeResponse_op (s : State) : (s.takeResponse).op = s.op := rfl
@[simp] theorem State.takeResponse_fmt (s : State) : (s.takeResponse).fmt = s.fmt := rfl
@[simp] theorem State.takeResponse_blk (s : State) : (s.takeResponse).blk = s.blk := rfl
@[simp] theorem State.takeResponse_tile (s : State) : (s.takeResponse).tile = s.tile := rfl
@[simp] theorem State.takeResponse_pix (s : State) : (s.takeResponse).pix = s.pix := rfl
@[simp] theorem State.takeResponse_mode (s : State) : (s.takeResponse).mode = s.mode := rfl
@[simp] theorem State.takeResponse_shape (s : State) : (s.takeResponse).shape = s.shape := rfl
@[simp] theorem State.takeResponse_rot (s : State) : (s.takeResponse).rot = s.rot := rfl
@[simp] theorem State.takeResponse_idxm (s : State) : (s.takeResponse).idxm = s.idxm := rfl
@[simp] theorem State.takeResponse_ep (s : State) : (s.takeResponse).ep = s.ep := rfl
@[simp] theorem State.takeResponse_pb (s : State) : (s.takeResponse).pb = s.pb := rfl
@[simp] theorem State.takeResponse_ix1 (s : State) : (s.takeResponse).ix1 = s.ix1 := rfl
@[simp] theorem State.takeResponse_ix2 (s : State) : (s.takeResponse).ix2 = s.ix2 := rfl
@[simp] theorem State.takeResponse_err (s : State) : (s.takeResponse).err = s.err := rfl
@[simp] theorem State.takeResponse_errtot (s : State) : (s.takeResponse).errtot = s.errtot := rfl
@[simp] theorem State.takeResponse_status (s : State) : (s.takeResponse).status = s.status := rfl
@[simp] theorem State.takeResponse_cur (s : State) : (s.takeResponse).cur = s.cur := rfl
@[simp] theorem State.takeResponse_ph (s : State) : (s.takeResponse).ph = .idle := rfl
@[simp] theorem State.takeResponse_busy (s : State) : (s.takeResponse).busy = false := rfl
@[simp] theorem State.takeResponse_rsp (s : State) : (s.takeResponse).rsp = none := rfl
@[simp] theorem State.takeResponse_inputs (s : State) : (s.takeResponse).inputs = s.inputs := rfl

/-! ## `State.afterInput` -/

@[simp] theorem State.afterInput_op (s : State) : (s.afterInput).op = s.op := rfl
@[simp] theorem State.afterInput_fmt (s : State) : (s.afterInput).fmt = s.fmt := rfl
@[simp] theorem State.afterInput_blk (s : State) : (s.afterInput).blk = s.blk := rfl
@[simp] theorem State.afterInput_tile (s : State) : (s.afterInput).tile = s.tile := rfl
@[simp] theorem State.afterInput_pix (s : State) : (s.afterInput).pix = s.pix := rfl
@[simp] theorem State.afterInput_mode (s : State) : (s.afterInput).mode = s.mode := rfl
@[simp] theorem State.afterInput_shape (s : State) : (s.afterInput).shape = s.shape := rfl
@[simp] theorem State.afterInput_rot (s : State) : (s.afterInput).rot = s.rot := rfl
@[simp] theorem State.afterInput_idxm (s : State) : (s.afterInput).idxm = s.idxm := rfl
@[simp] theorem State.afterInput_ep (s : State) : (s.afterInput).ep = s.ep := rfl
@[simp] theorem State.afterInput_pb (s : State) : (s.afterInput).pb = s.pb := rfl
@[simp] theorem State.afterInput_ix1 (s : State) : (s.afterInput).ix1 = s.ix1 := rfl
@[simp] theorem State.afterInput_ix2 (s : State) : (s.afterInput).ix2 = s.ix2 := rfl
@[simp] theorem State.afterInput_err (s : State) : (s.afterInput).err = s.err := rfl
@[simp] theorem State.afterInput_errtot (s : State) : (s.afterInput).errtot = s.errtot := rfl
@[simp] theorem State.afterInput_status (s : State) : (s.afterInput).status = s.status := rfl
@[simp] theorem State.afterInput_cur (s : State) : (s.afterInput).cur = s.cur := rfl
@[simp] theorem State.afterInput_ph (s : State) : (s.afterInput).ph = s.ph := rfl
@[simp] theorem State.afterInput_busy (s : State) : (s.afterInput).busy = s.busy := rfl
@[simp] theorem State.afterInput_rsp (s : State) : (s.afterInput).rsp = s.rsp := rfl
@[simp] theorem State.afterInput_inputs (s : State) : (s.afterInput).inputs = s.inputs.tail := rfl

/-! ## `State.resetPort` -/

theorem State.resetPort_eq (s : State) : s.resetPort = { State.reset with inputs := s.inputs } := rfl
@[simp] theorem State.resetPort_busy (s : State) : s.resetPort.busy = false := rfl
@[simp] theorem State.resetPort_rsp (s : State) : s.resetPort.rsp = none := rfl
@[simp] theorem State.resetPort_ph (s : State) : s.resetPort.ph = .idle := rfl
@[simp] theorem State.resetPort_inputs (s : State) : s.resetPort.inputs = s.inputs := rfl

end Sys2Proof.Machine
end

