-- ==== Sys2Proof/Laws/Encoder.lean ====
section
/-! SUPPORT. The encoder's shared pieces, one turn of each loop at a time, and what `exec` unfolds to for an `ENC*`. -/

namespace Sys2Proof.Machine

theorem exec_encInstr_bc7 (q : Bool) (c : Candidate) (s : State) :
    exec (encInstr q 0 c) s = .next (encodeBc7 tables q c (s.acceptEnc (encOp q) 0 c)) := by
  cases q <;> rfl

theorem exec_encInstr_bc6h (q : Bool) (fmt : Fin 3) (c : Candidate) (s : State) (h : fmt ≠ 0) :
    exec (encInstr q fmt c) s = .next (encodeBc6h tables q c (s.acceptEnc (encOp q) (BitVec.ofNat 2 fmt) c)) := by
  fin_cases fmt
  · exact absurd rfl h
  · cases q <;> rfl
  · cases q <;> rfl

theorem sgOf_fmt (fmt : Fin 3) : sgOf (BitVec.ofNat 2 fmt) = (fmt == 2) := by
  fin_cases fmt <;> rfl

theorem nearest_zero (D : Nat → Nat) : nearest D 0 = (0, D 0) := rfl

/-- The last turn of the loop of R212. -/
theorem nearest_succ (D : Nat → Nat) (n : Nat) :
    nearest D (n + 1) = if D (n + 1) < (nearest D n).2 then (n + 1, D (n + 1)) else nearest D n := rfl

theorem dist_nil (p q : Nat → Int) : dist p q [] = 0 := rfl

theorem dist_cons (p q : Nat → Int) (c : Nat) (S : List Nat) :
    dist p q (c :: S) = (p c - q c).natAbs ^ 2 + dist p q S := by
  simp [dist]

/-- The distance depends on the channels of the set alone. -/
theorem dist_congr (p q p' q' : Nat → Int) (S : List Nat) (h : ∀ c ∈ S, p c = p' c ∧ q c = q' c) :
    dist p q S = dist p' q' S := by
  unfold dist
  congr 1
  exact List.map_congr_left fun c hc => by rw [(h c hc).1, (h c hc).2]

@[simp] theorem endOf_false (e : Nat) : endOf false e = e := rfl

theorem endOf_true (r : Nat) : endOf true (2 * r) = 2 * r + 1 ∧ endOf true (2 * r + 1) = 2 * r := by
  constructor <;> simp [endOf]

@[simp] theorem mirrored_false (ip j : Nat) : mirrored false ip j = j := rfl

/-- A mirrored index is an index of the same precision. -/
theorem mirrored_lt (b : Bool) (ip j : Nat) (h : j < 2 ^ ip) : mirrored b ip j < 2 ^ ip := by
  cases b <;> simp [mirrored] <;> omega

end Sys2Proof.Machine
end

