-- ==== Sys2Proof/Laws/Ops.lean ====
section
/-! SUPPORT. Everything the shared operations of Machine/Ops.lean can do. -/

namespace Sys2Proof.Machine

/-! ## Phases in order -/

@[simp] theorem runPhases_nil (s : State) : runPhases [] s = s := rfl

/-- A phase that does not raise is followed by the rest. -/
theorem runPhases_cons_of_ne (f : State → State) (fs : List (State → State)) (s : State) (h : (f s).ph ≠ .fault) :
    runPhases (f :: fs) s = runPhases fs (f s) := by
  simp [runPhases, h]

/-- A phase that raises ends the operation. -/
theorem runPhases_cons_of_fault (f : State → State) (fs : List (State → State)) (s : State) (h : (f s).ph = .fault) :
    runPhases (f :: fs) s = f s := by
  simp [runPhases, h]

/-- What every phase keeps, the operation keeps. -/
theorem runPhases_keeps (P : State → Prop) (fs : List (State → State)) (s : State) (h0 : P s)
    (h : ∀ f ∈ fs, ∀ u, P u → P (f u)) : P (runPhases fs s) := by
  induction fs generalizing s with
  | nil => exact h0
  | cons f fs ih =>
    have h1 : P (f s) := h f (by simp) s h0
    by_cases hf : (f s).ph = .fault
    · rwa [runPhases_cons_of_fault f fs s hf]
    · rw [runPhases_cons_of_ne f fs s hf]
      exact ih _ h1 fun g hg => h g (by simp [hg])

/-- An operation ends in `FAULT`, or every phase has run and none raised. -/
theorem runPhases_cases (fs : List (State → State)) (s : State) :
    (runPhases fs s).ph = .fault ∨ runPhases fs s = fs.foldl (fun u f => f u) s := by
  induction fs generalizing s with
  | nil => exact .inr rfl
  | cons f fs ih =>
    by_cases hf : (f s).ph = .fault
    · exact .inl (by rwa [runPhases_cons_of_fault f fs s hf])
    · rw [runPhases_cons_of_ne f fs s hf]
      exact ih _

/-! ## The checked bit cursor -/

/-- Fields that all lie in the block are read and the cursor passes them (R147). -/
theorem State.getAll_of_le (c : Status) (ws : List Nat) (s : State) (h : s.cur + totalWidth ws ≤ 128) :
    State.getAll c ws s = (readAll s.blk ws s.cur, { s with cur := s.cur + totalWidth ws }) := by
  induction ws generalizing s with
  | nil => rfl
  | cons w ws ih =>
    have hw : ¬ 128 < s.cur + w := by simp only [totalWidth] at h; omega
    have hs : s.cur + w + totalWidth ws ≤ 128 := by simp only [totalWidth] at h; omega
    simp [State.getAll, hw, ih { s with cur := s.cur + w } hs, readAll, totalWidth, Nat.add_assoc]

/-- What reading a run of fields does, in every case: the cursor passes all of them, or it stops at the first that
leaves the block and `c` is raised there (R144, R147). Nothing else changes. -/
theorem State.getAll_cases (c : Status) (ws : List Nat) (s : State) :
    (State.getAll c ws s = (readAll s.blk ws s.cur, { s with cur := s.cur + totalWidth ws }) ∧
      (s.cur + totalWidth ws ≤ 128 ∨ ws = [])) ∨
    ∃ vs w us, ws = vs ++ w :: us ∧ 128 < s.cur + totalWidth (vs ++ [w]) ∧
      State.getAll c ws s = (readAll s.blk vs s.cur, { s with cur := s.cur + totalWidth vs }.raise c) := by
  induction ws generalizing s with
  | nil => exact .inl ⟨rfl, .inr rfl⟩
  | cons w ws ih =>
    by_cases hw : 128 < s.cur + w
    · exact .inr ⟨[], w, ws, rfl, by simpa [totalWidth] using hw, by simp [State.getAll, hw, readAll, totalWidth]⟩
    · rcases ih { s with cur := s.cur + w } with ⟨h, hle⟩ | ⟨vs, v, us, rfl, hlt, h⟩
      · refine .inl ⟨by simp [State.getAll, hw, h, readAll, totalWidth, Nat.add_assoc], .inl ?_⟩
        rcases hle with hle | rfl
        · simpa [totalWidth, Nat.add_assoc] using hle
        · simp [totalWidth]; omega
      · refine .inr ⟨w :: vs, v, us, rfl, ?_, ?_⟩
        · simpa [totalWidth, Nat.add_assoc] using hlt
        · simp [State.getAll, hw, h, readAll, totalWidth, Nat.add_assoc]

/-- Fields that all lie in the block are written and the cursor passes them (R147). -/
theorem State.putAll_of_le (fs : List (Nat × Nat)) (s : State) (h : s.cur + totalWidth (fs.map Prod.fst) ≤ 128) :
    State.putAll fs s =
      { s with blk := writeAll fs s.blk s.cur, cur := s.cur + totalWidth (fs.map Prod.fst) } := by
  induction fs generalizing s with
  | nil => rfl
  | cons p fs ih =>
    obtain ⟨w, v⟩ := p
    have hw : ¬ 128 < s.cur + w := by simp only [List.map_cons, totalWidth] at h; omega
    have hs : s.cur + w + totalWidth (fs.map Prod.fst) ≤ 128 := by simp only [List.map_cons, totalWidth] at h; omega
    simp [State.putAll, hw, ih { s with blk := wrbits s.blk s.cur w v, cur := s.cur + w } hs, writeAll, totalWidth,
      Nat.add_assoc]

/-- What writing a run of fields does, in every case (R144, R147). -/
theorem State.putAll_cases (fs : List (Nat × Nat)) (s : State) :
    (State.putAll fs s =
        { s with blk := writeAll fs s.blk s.cur, cur := s.cur + totalWidth (fs.map Prod.fst) } ∧
      (s.cur + totalWidth (fs.map Prod.fst) ≤ 128 ∨ fs = [])) ∨
    ∃ gs p hs, fs = gs ++ p :: hs ∧ 128 < s.cur + totalWidth ((gs ++ [p]).map Prod.fst) ∧
      State.putAll fs s =
        { s with blk := writeAll gs s.blk s.cur, cur := s.cur + totalWidth (gs.map Prod.fst) }.raise .cursorRange := by
  induction fs generalizing s with
  | nil => exact .inl ⟨rfl, .inr rfl⟩
  | cons p fs ih =>
    obtain ⟨w, v⟩ := p
    by_cases hw : 128 < s.cur + w
    · exact .inr ⟨[], (w, v), fs, rfl, by simpa [totalWidth] using hw,
        by simp [State.putAll, hw, writeAll, totalWidth]⟩
    · rcases ih { s with blk := wrbits s.blk s.cur w v, cur := s.cur + w } with ⟨h, hle⟩ | ⟨gs, p, hs, rfl, hlt, h⟩
      · refine .inl ⟨by simp [State.putAll, hw, h, writeAll, totalWidth, Nat.add_assoc], .inl ?_⟩
        rcases hle with hle | rfl
        · simpa [totalWidth, Nat.add_assoc] using hle
        · simp [totalWidth]; omega
      · refine .inr ⟨(w, v) :: gs, p, hs, rfl, ?_, ?_⟩
        · simpa [totalWidth, Nat.add_assoc] using hlt
        · simp [State.putAll, hw, h, writeAll, totalWidth, Nat.add_assoc]

/-! What reading and writing fields leave alone. -/

@[simp] theorem State.getAll_op (c : Status) (ws : List Nat) (s : State) : (State.getAll c ws s).2.op = s.op := by
  rcases State.getAll_cases c ws s with ⟨h, -⟩ | ⟨_, _, _, -, -, h⟩ <;> simp [h]
@[simp] theorem State.getAll_fmt (c : Status) (ws : List Nat) (s : State) : (State.getAll c ws s).2.fmt = s.fmt := by
  rcases State.getAll_cases c ws s with ⟨h, -⟩ | ⟨_, _, _, -, -, h⟩ <;> simp [h]
@[simp] theorem State.getAll_blk (c : Status) (ws : List Nat) (s : State) : (State.getAll c ws s).2.blk = s.blk := by
  rcases State.getAll_cases c ws s with ⟨h, -⟩ | ⟨_, _, _, -, -, h⟩ <;> simp [h]
@[simp] theorem State.getAll_tile (c : Status) (ws : List Nat) (s : State) : (State.getAll c ws s).2.tile = s.tile := by
  rcases State.getAll_cases c ws s with ⟨h, -⟩ | ⟨_, _, _, -, -, h⟩ <;> simp [h]
@[simp] theorem State.getAll_pix (c : Status) (ws : List Nat) (s : State) : (State.getAll c ws s).2.pix = s.pix := by
  rcases State.getAll_cases c ws s with ⟨h, -⟩ | ⟨_, _, _, -, -, h⟩ <;> simp [h]
@[simp] theorem State.getAll_mode (c : Status) (ws : List Nat) (s : State) : (State.getAll c ws s).2.mode = s.mode := by
  rcases State.getAll_cases c ws s with ⟨h, -⟩ | ⟨_, _, _, -, -, h⟩ <;> simp [h]
@[simp] theorem State.getAll_shape (c : Status) (ws : List Nat) (s : State) : (State.getAll c ws s).2.shape = s.shape := by
  rcases State.getAll_cases c ws s with ⟨h, -⟩ | ⟨_, _, _, -, -, h⟩ <;> simp [h]
@[simp] theorem State.getAll_rot (c : Status) (ws : List Nat) (s : State) : (State.getAll c ws s).2.rot = s.rot := by
  rcases State.getAll_cases c ws s with ⟨h, -⟩ | ⟨_, _, _, -, -, h⟩ <;> simp [h]
@[simp] theorem State.getAll_idxm (c : Status) (ws : List Nat) (s : State) : (State.getAll c ws s).2.idxm = s.idxm := by
  rcases State.getAll_cases c ws s with ⟨h, -⟩ | ⟨_, _, _, -, -, h⟩ <;> simp [h]
@[simp] theorem State.getAll_ep (c : Status) (ws : List Nat) (s : State) : (State.getAll c ws s).2.ep = s.ep := by
  rcases State.getAll_cases c ws s with ⟨h, -⟩ | ⟨_, _, _, -, -, h⟩ <;> simp [h]
@[simp] theorem State.getAll_pb (c : Status) (ws : List Nat) (s : State) : (State.getAll c ws s).2.pb = s.pb := by
  rcases State.getAll_cases c ws s with ⟨h, -⟩ | ⟨_, _, _, -, -, h⟩ <;> simp [h]
@[simp] theorem State.getAll_ix1 (c : Status) (ws : List Nat) (s : State) : (State.getAll c ws s).2.ix1 = s.ix1 := by
  rcases State.getAll_cases c ws s with ⟨h, -⟩ | ⟨_, _, _, -, -, h⟩ <;> simp [h]
@[simp] theorem State.getAll_ix2 (c : Status) (ws : List Nat) (s : State) : (State.getAll c ws s).2.ix2 = s.ix2 := by
  rcases State.getAll_cases c ws s with ⟨h, -⟩ | ⟨_, _, _, -, -, h⟩ <;> simp [h]
@[simp] theorem State.getAll_err (c : Status) (ws : List Nat) (s : State) : (State.getAll c ws s).2.err = s.err := by
  rcases State.getAll_cases c ws s with ⟨h, -⟩ | ⟨_, _, _, -, -, h⟩ <;> simp [h]
@[simp] theorem State.getAll_errtot (c : Status) (ws : List Nat) (s : State) : (State.getAll c ws s).2.errtot = s.errtot := by
  rcases State.getAll_cases c ws s with ⟨h, -⟩ | ⟨_, _, _, -, -, h⟩ <;> simp [h]
@[simp] theorem State.getAll_busy (c : Status) (ws : List Nat) (s : State) : (State.getAll c ws s).2.busy = s.busy := by
  rcases State.getAll_cases c ws s with ⟨h, -⟩ | ⟨_, _, _, -, -, h⟩ <;> simp [h]
@[simp] theorem State.getAll_inputs (c : Status) (ws : List Nat) (s : State) : (State.getAll c ws s).2.inputs = s.inputs := by
  rcases State.getAll_cases c ws s with ⟨h, -⟩ | ⟨_, _, _, -, -, h⟩ <;> simp [h]

@[simp] theorem State.putAll_op (fs : List (Nat × Nat)) (s : State) : (State.putAll fs s).op = s.op := by
  rcases State.putAll_cases fs s with ⟨h, -⟩ | ⟨_, _, _, -, -, h⟩ <;> simp [h]
@[simp] theorem State.putAll_fmt (fs : List (Nat × Nat)) (s : State) : (State.putAll fs s).fmt = s.fmt := by
  rcases State.putAll_cases fs s with ⟨h, -⟩ | ⟨_, _, _, -, -, h⟩ <;> simp [h]
@[simp] theorem State.putAll_tile (fs : List (Nat × Nat)) (s : State) : (State.putAll fs s).tile = s.tile := by
  rcases State.putAll_cases fs s with ⟨h, -⟩ | ⟨_, _, _, -, -, h⟩ <;> simp [h]
@[simp] theorem State.putAll_pix (fs : List (Nat × Nat)) (s : State) : (State.putAll fs s).pix = s.pix := by
  rcases State.putAll_cases fs s with ⟨h, -⟩ | ⟨_, _, _, -, -, h⟩ <;> simp [h]
@[simp] theorem State.putAll_mode (fs : List (Nat × Nat)) (s : State) : (State.putAll fs s).mode = s.mode := by
  rcases State.putAll_cases fs s with ⟨h, -⟩ | ⟨_, _, _, -, -, h⟩ <;> simp [h]
@[simp] theorem State.putAll_shape (fs : List (Nat × Nat)) (s : State) : (State.putAll fs s).shape = s.shape := by
  rcases State.putAll_cases fs s with ⟨h, -⟩ | ⟨_, _, _, -, -, h⟩ <;> simp [h]
@[simp] theorem State.putAll_rot (fs : List (Nat × Nat)) (s : State) : (State.putAll fs s).rot = s.rot := by
  rcases State.putAll_cases fs s with ⟨h, -⟩ | ⟨_, _, _, -, -, h⟩ <;> simp [h]
@[simp] theorem State.putAll_idxm (fs : List (Nat × Nat)) (s : State) : (State.putAll fs s).idxm = s.idxm := by
  rcases State.putAll_cases fs s with ⟨h, -⟩ | ⟨_, _, _, -, -, h⟩ <;> simp [h]
@[simp] theorem State.putAll_ep (fs : List (Nat × Nat)) (s : State) : (State.putAll fs s).ep = s.ep := by
  rcases State.putAll_cases fs s with ⟨h, -⟩ | ⟨_, _, _, -, -, h⟩ <;> simp [h]
@[simp] theorem State.putAll_pb (fs : List (Nat × Nat)) (s : State) : (State.putAll fs s).pb = s.pb := by
  rcases State.putAll_cases fs s with ⟨h, -⟩ | ⟨_, _, _, -, -, h⟩ <;> simp [h]
@[simp] theorem State.putAll_ix1 (fs : List (Nat × Nat)) (s : State) : (State.putAll fs s).ix1 = s.ix1 := by
  rcases State.putAll_cases fs s with ⟨h, -⟩ | ⟨_, _, _, -, -, h⟩ <;> simp [h]
@[simp] theorem State.putAll_ix2 (fs : List (Nat × Nat)) (s : State) : (State.putAll fs s).ix2 = s.ix2 := by
  rcases State.putAll_cases fs s with ⟨h, -⟩ | ⟨_, _, _, -, -, h⟩ <;> simp [h]
@[simp] theorem State.putAll_err (fs : List (Nat × Nat)) (s : State) : (State.putAll fs s).err = s.err := by
  rcases State.putAll_cases fs s with ⟨h, -⟩ | ⟨_, _, _, -, -, h⟩ <;> simp [h]
@[simp] theorem State.putAll_errtot (fs : List (Nat × Nat)) (s : State) : (State.putAll fs s).errtot = s.errtot := by
  rcases State.putAll_cases fs s with ⟨h, -⟩ | ⟨_, _, _, -, -, h⟩ <;> simp [h]
@[simp] theorem State.putAll_busy (fs : List (Nat × Nat)) (s : State) : (State.putAll fs s).busy = s.busy := by
  rcases State.putAll_cases fs s with ⟨h, -⟩ | ⟨_, _, _, -, -, h⟩ <;> simp [h]
@[simp] theorem State.putAll_inputs (fs : List (Nat × Nat)) (s : State) : (State.putAll fs s).inputs = s.inputs := by
  rcases State.putAll_cases fs s with ⟨h, -⟩ | ⟨_, _, _, -, -, h⟩ <;> simp [h]

/-- As many values come back as fields were asked for, unless the run left the block. -/
theorem State.getAll_length (c : Status) (ws : List Nat) (s : State) (h : s.cur + totalWidth ws ≤ 128) :
    (State.getAll c ws s).1.length = ws.length := by
  rw [State.getAll_of_le c ws s h, readAll_length]

/-- A run that left the block shows in the phase, in the status and in the response (R312). -/
theorem State.getAll_ph (c : Status) (ws : List Nat) (s : State) :
    (State.getAll c ws s).2 = { s with cur := s.cur + totalWidth ws } ∨
    ((State.getAll c ws s).2.ph = .fault ∧ (State.getAll c ws s).2.status = c ∧
      (State.getAll c ws s).2.rsp = some (Response.statusOnly c)) := by
  rcases State.getAll_cases c ws s with ⟨h, -⟩ | ⟨_, _, _, -, -, h⟩
  · exact .inl (by rw [h])
  · exact .inr (by simp [h])

end Sys2Proof.Machine
end

