-- ==== Sys2Proof/Laws/Palette.lean ====
section
/-! SUPPORT. What the interpolator computes over the supplied tables, so that no proof unfolds their record. -/

namespace Sys2Proof.Machine

@[simp] theorem tables_wMax : tables.wMax = 64 := rfl
@[simp] theorem tables_wRound : tables.wRound = 32 := rfl
@[simp] theorem tables_wShift : tables.wShift = 6 := rfl

/-- `INTERP` with the constants of R201. -/
theorem interp_tables (a b w : Int) : interp tables a b w = (a * (64 - w) + b * w + 32) / 64 := rfl

end Sys2Proof.Machine
end

