-- ==== Sys2Proof/Laws/Tables.lean ====
section
/-! SUPPORT. The descriptor rows as rewrite rules, and the ranges of the shape and fixup lookups. -/

namespace Sys2Proof

theorem bc7_0 : tables.bc7 0 = ⟨2, 4, 0, 0, 4, 0, 6, 3, 0⟩ := rfl
theorem bc7_1 : tables.bc7 1 = ⟨1, 6, 0, 0, 6, 0, 2, 3, 0⟩ := rfl
theorem bc7_2 : tables.bc7 2 = ⟨2, 6, 0, 0, 5, 0, 0, 2, 0⟩ := rfl
theorem bc7_3 : tables.bc7 3 = ⟨1, 6, 0, 0, 7, 0, 4, 2, 0⟩ := rfl
theorem bc7_4 : tables.bc7 4 = ⟨0, 0, 2, 1, 5, 6, 0, 2, 3⟩ := rfl
theorem bc7_5 : tables.bc7 5 = ⟨0, 0, 2, 0, 7, 8, 0, 2, 2⟩ := rfl
theorem bc7_6 : tables.bc7 6 = ⟨0, 0, 0, 0, 7, 7, 2, 4, 0⟩ := rfl
theorem bc7_7 : tables.bc7 7 = ⟨1, 6, 0, 0, 5, 5, 4, 2, 0⟩ := rfl

theorem bc6h_1 : tables.bc6h 1 = ⟨0x00, 2, true, 1, 10, 5, 5, 5, 3⟩ := rfl
theorem bc6h_2 : tables.bc6h 2 = ⟨0x01, 2, true, 1, 7, 6, 6, 6, 3⟩ := rfl
theorem bc6h_3 : tables.bc6h 3 = ⟨0x02, 5, true, 1, 11, 5, 4, 4, 3⟩ := rfl
theorem bc6h_4 : tables.bc6h 4 = ⟨0x06, 5, true, 1, 11, 4, 5, 4, 3⟩ := rfl
theorem bc6h_5 : tables.bc6h 5 = ⟨0x0A, 5, true, 1, 11, 4, 4, 5, 3⟩ := rfl
theorem bc6h_6 : tables.bc6h 6 = ⟨0x0E, 5, true, 1, 9, 5, 5, 5, 3⟩ := rfl
theorem bc6h_7 : tables.bc6h 7 = ⟨0x12, 5, true, 1, 8, 6, 5, 5, 3⟩ := rfl
theorem bc6h_8 : tables.bc6h 8 = ⟨0x16, 5, true, 1, 8, 5, 6, 5, 3⟩ := rfl
theorem bc6h_9 : tables.bc6h 9 = ⟨0x1A, 5, true, 1, 8, 5, 5, 6, 3⟩ := rfl
theorem bc6h_10 : tables.bc6h 10 = ⟨0x1E, 5, false, 1, 6, 6, 6, 6, 3⟩ := rfl
theorem bc6h_11 : tables.bc6h 11 = ⟨0x03, 5, false, 0, 10, 10, 10, 10, 4⟩ := rfl
theorem bc6h_12 : tables.bc6h 12 = ⟨0x07, 5, true, 0, 11, 9, 9, 9, 4⟩ := rfl
theorem bc6h_13 : tables.bc6h 13 = ⟨0x0B, 5, true, 0, 12, 8, 8, 8, 4⟩ := rfl
theorem bc6h_14 : tables.bc6h 14 = ⟨0x0F, 5, true, 0, 16, 4, 4, 4, 4⟩ := rfl

/-- Every supplied layout is as long as its header, so the packer writes all of it. -/
@[simp] theorem layout_take_hdr (mode : Nat) :
    (tables.layout mode).take (tables.bc6h mode).hdr = tables.layout mode := by
  have h : ∀ m < 15, (tables.layout m).length ≤ (tables.bc6h m).hdr := by decide +kernel
  rcases Nat.lt_or_ge mode 15 with hm | hm
  · exact List.take_of_length_le (h mode hm)
  · have hl : tables.layout6.length = 14 := by decide +kernel
    have : tables.layout mode = [] := by
      unfold Tables.layout
      rw [List.getD_eq_default _ _ (by omega)]
    simp [this]

/-- A digit of a shape row of the supplied tables is a region number. -/
theorem region_lt (P shape i : Nat) (hP : P ≤ 2) (hs : shape < 64) (hi : i < 16) : tables.region P shape i ≤ P := by
  have h1 : ∀ s < 64, ∀ j < 16, shapeDigit (tables.part2.getD s 0) j ≤ 1 := by decide +kernel
  have h2 : ∀ s < 64, ∀ j < 16, shapeDigit (tables.part3.getD s 0) j ≤ 2 := by decide +kernel
  obtain rfl | rfl | rfl : P = 0 ∨ P = 1 ∨ P = 2 := by omega
  · simp [Tables.region]
  · simpa [Tables.region] using h1 shape hs i hi
  · simpa [Tables.region] using h2 shape hs i hi

/-- Every fixup pixel is a pixel of the tile. -/
theorem fixup_lt (P shape r : Nat) (hs : shape < 64) : tables.fixup P shape r < 16 := by
  have h : ∀ s < 64, tables.fix2.getD s 0 < 16 ∧ tables.fix3a.getD s 0 < 16 ∧ tables.fix3b.getD s 0 < 16 := by
    decide +kernel
  obtain ⟨h1, h2, h3⟩ := h shape hs
  unfold Tables.fixup
  split
  · omega
  split
  · exact h1
  split
  · exact h2
  split
  · exact h3
  · omega

/-- Every weight is between 0 and 64. -/
theorem weight_le (ip j : Nat) : tables.weight ip j ≤ 64 := by
  have key : ∀ l : List Nat, (∀ x ∈ l, x ≤ 64) → ∀ j, l.getD j 0 ≤ 64 := by
    intro l hl j
    rcases lt_or_ge j l.length with h | h
    · rw [List.getD_eq_getElem _ _ h]; exact hl _ (List.getElem_mem h)
    · rw [List.getD_eq_default _ _ h]; omega
  unfold Tables.weight
  split
  · exact key _ (by decide) j
  split
  · exact key _ (by decide) j
  split
  · exact key _ (by decide) j
  · omega

end Sys2Proof
end

