-- ==== Sys2Proof/Laws/PerInstr.lean ====
section
/-! SUPPORT. Statements made per instruction. `SelectorBits`: the word an instruction is encoded to carries, under the
mask of its row of spec/opcode_table.json, the row's match bits, whatever its operands. A command's word is the 4-bit
key `fmt << 2 | op` of that table. -/

namespace Sys2Proof.Laws.SelectorBits

open Sys2Proof

/-- The bits of a word, numbered as the opcode table numbers them. -/
def bits : Code → Nat
  | .bc7 B => B.toNat
  | .bc6h B => B.toNat
  | .cmd c => c.fmt.toNat * 4 + c.op.toNat

/-- The `match` and `mask` columns of the opcode table. -/
def row : Instr → Nat × Nat
  | .bc7M0 _ => (0x01, 0x01)
  | .bc7M1 _ => (0x02, 0x03)
  | .bc7M2 _ => (0x04, 0x07)
  | .bc7M3 _ => (0x08, 0x0F)
  | .bc7M4 _ => (0x10, 0x1F)
  | .bc7M5 _ => (0x20, 0x3F)
  | .bc7M6 _ => (0x40, 0x7F)
  | .bc7M7 _ => (0x80, 0xFF)
  | .bc7Reserved _ => (0x00, 0xFF)
  | .bc6hM1 _ => (0x00, 0x03)
  | .bc6hM2 _ => (0x01, 0x03)
  | .bc6hM3 _ => (0x02, 0x1F)
  | .bc6hM4 _ => (0x06, 0x1F)
  | .bc6hM5 _ => (0x0A, 0x1F)
  | .bc6hM6 _ => (0x0E, 0x1F)
  | .bc6hM7 _ => (0x12, 0x1F)
  | .bc6hM8 _ => (0x16, 0x1F)
  | .bc6hM9 _ => (0x1A, 0x1F)
  | .bc6hM10 _ => (0x1E, 0x1F)
  | .bc6hM11 _ => (0x03, 0x1F)
  | .bc6hM12 _ => (0x07, 0x1F)
  | .bc6hM13 _ => (0x0B, 0x1F)
  | .bc6hM14 _ => (0x0F, 0x1F)
  | .bc6hReserved13 _ => (0x13, 0x1F)
  | .bc6hReserved17 _ => (0x17, 0x1F)
  | .bc6hReserved1B _ => (0x1B, 0x1F)
  | .bc6hReserved1F _ => (0x1F, 0x1F)
  | .decBc7 _ => (0x00, 0x0F)
  | .decBc6hUnsigned _ => (0x04, 0x0F)
  | .decBc6hSigned _ => (0x08, 0x0F)
  | .encqBc7 _ => (0x01, 0x0F)
  | .encqBc6hUnsigned _ => (0x05, 0x0F)
  | .encqBc6hSigned _ => (0x09, 0x0F)
  | .enceBc7 _ => (0x02, 0x0F)
  | .enceBc6hUnsigned _ => (0x06, 0x0F)
  | .enceBc6hSigned _ => (0x0A, 0x0F)
  | .cmdReservedOp _ => (0x03, 0x03)
  | .cmdReservedFmt _ => (0x0C, 0x0C)

def Statement (i : Instr) : Prop := bits (encode i) &&& (row i).2 = (row i).1

/-- The low bits of a written block are those of the fields that were written there first. -/
theorem low_bits (fs pre rest : List (Nat × Nat)) (w v : Nat) (h : fs = pre ++ rest)
    (hw : totalWidth (pre.map Prod.fst) = w) (hv : (writeAll pre 0 0).toNat % 2 ^ w = v) :
    (writeAll fs 0 0).toNat &&& (2 ^ w - 1) = v := by
  have ha : writeAll fs 0 0 = writeAll rest (writeAll pre 0 0) (0 + totalWidth (pre.map Prod.fst)) := by
    rw [h]; exact writeAll_append pre rest 0 0
  rw [Nat.and_two_pow_sub_one_eq_mod, ha, writeAll_toNat_mod _ _ _ _ (by omega), hv]

/-- The low bits of a word with a reserved selector are the selector. -/
theorem low_append (n w : Nat) (rest : BitVec n) (x : BitVec w) : (rest ++ x).toNat &&& (2 ^ w - 1) = x.toNat := by
  rw [Nat.and_two_pow_sub_one_eq_mod]
  apply Nat.eq_of_testBit_eq
  intro i
  simp only [Nat.testBit_mod_two_pow, BitVec.testBit_toNat, BitVec.getLsbD_append]
  by_cases hi : i < w
  · simp [hi]
  · simp [hi, BitVec.getLsbD_of_ge x i (by omega)]

/-- The bits of a BC6H selector, as the fields the packer writes first (R285). -/
def selectorFields (mode w : Nat) : List (Nat × Nat) :=
  (List.range w).map fun b => (1, ((tables.bc6h mode).sel >>> b) % 2)

/-- The same of a BC6H block, whose header is written one bit at a time. -/
theorem low_header (f : Bc6hFields) (mode w v : Nat)
    (h : (tables.layout mode).take w = (List.range w).map fun b => (HdrField.m, b))
    (hw : totalWidth ((selectorFields mode w).map Prod.fst) = w)
    (hv : (writeAll (selectorFields mode w) 0 0).toNat % 2 ^ w = v) :
    (encode6 mode f).toNat &&& (2 ^ w - 1) = v := by
  have hL : tables.layout mode = ((List.range w).map fun b => (HdrField.m, b)) ++ (tables.layout mode).drop w := by
    rw [← h, List.take_append_drop]
  have hf : f.fields tables mode = selectorFields mode w ++
      (((tables.layout mode).drop w).map (fun p => (1, (f.hdrValue (tables.bc6h mode) p.1 >>> p.2) % 2)) ++
        (List.range 16).map fun i =>
          (tables.idxWidth (tables.bc6h mode).P f.shape (tables.bc6h mode).IP i, rd f.ix i 0)) := by
    rw [← List.append_assoc]
    simp only [Bc6hFields.fields, layout_take_hdr]
    rw [hL]
    simp [selectorFields, Bc6hFields.hdrValue, Function.comp_def]
  exact low_bits _ _ _ w v hf hw hv

theorem bc7M0 (f : Bc7Fields) : Statement (.bc7M0 f) :=
  low_bits _ [(1, 0x01)] _ 1 0x01 rfl rfl (by decide +kernel)

theorem bc7M1 (f : Bc7Fields) : Statement (.bc7M1 f) :=
  low_bits _ [(2, 0x02)] _ 2 0x02 rfl rfl (by decide +kernel)

theorem bc7M2 (f : Bc7Fields) : Statement (.bc7M2 f) :=
  low_bits _ [(3, 0x04)] _ 3 0x04 rfl rfl (by decide +kernel)

theorem bc7M3 (f : Bc7Fields) : Statement (.bc7M3 f) :=
  low_bits _ [(4, 0x08)] _ 4 0x08 rfl rfl (by decide +kernel)

theorem bc7M4 (f : Bc7Fields) : Statement (.bc7M4 f) :=
  low_bits _ [(5, 0x10)] _ 5 0x10 rfl rfl (by decide +kernel)

theorem bc7M5 (f : Bc7Fields) : Statement (.bc7M5 f) :=
  low_bits _ [(6, 0x20)] _ 6 0x20 rfl rfl (by decide +kernel)

theorem bc7M6 (f : Bc7Fields) : Statement (.bc7M6 f) :=
  low_bits _ [(7, 0x40)] _ 7 0x40 rfl rfl (by decide +kernel)

theorem bc7M7 (f : Bc7Fields) : Statement (.bc7M7 f) :=
  low_bits _ [(8, 0x80)] _ 8 0x80 rfl rfl (by decide +kernel)

theorem bc7Reserved (rest : BitVec 120) : Statement (.bc7Reserved rest) :=
  low_append 120 8 rest 0x00#8

theorem bc6hM1 (f : Bc6hFields) : Statement (.bc6hM1 f) :=
  low_header f 1 2 0x00 (by decide +kernel) (by decide +kernel) (by decide +kernel)

theorem bc6hM2 (f : Bc6hFields) : Statement (.bc6hM2 f) :=
  low_header f 2 2 0x01 (by decide +kernel) (by decide +kernel) (by decide +kernel)

theorem bc6hM3 (f : Bc6hFields) : Statement (.bc6hM3 f) :=
  low_header f 3 5 0x02 (by decide +kernel) (by decide +kernel) (by decide +kernel)

theorem bc6hM4 (f : Bc6hFields) : Statement (.bc6hM4 f) :=
  low_header f 4 5 0x06 (by decide +kernel) (by decide +kernel) (by decide +kernel)

theorem bc6hM5 (f : Bc6hFields) : Statement (.bc6hM5 f) :=
  low_header f 5 5 0x0A (by decide +kernel) (by decide +kernel) (by decide +kernel)

theorem bc6hM6 (f : Bc6hFields) : Statement (.bc6hM6 f) :=
  low_header f 6 5 0x0E (by decide +kernel) (by decide +kernel) (by decide +kernel)

theorem bc6hM7 (f : Bc6hFields) : Statement (.bc6hM7 f) :=
  low_header f 7 5 0x12 (by decide +kernel) (by decide +kernel) (by decide +kernel)

theorem bc6hM8 (f : Bc6hFields) : Statement (.bc6hM8 f) :=
  low_header f 8 5 0x16 (by decide +kernel) (by decide +kernel) (by decide +kernel)

theorem bc6hM9 (f : Bc6hFields) : Statement (.bc6hM9 f) :=
  low_header f 9 5 0x1A (by decide +kernel) (by decide +kernel) (by decide +kernel)

theorem bc6hM10 (f : Bc6hFields) : Statement (.bc6hM10 f) :=
  low_header f 10 5 0x1E (by decide +kernel) (by decide +kernel) (by decide +kernel)

theorem bc6hM11 (f : Bc6hFields) : Statement (.bc6hM11 f) :=
  low_header f 11 5 0x03 (by decide +kernel) (by decide +kernel) (by decide +kernel)

theorem bc6hM12 (f : Bc6hFields) : Statement (.bc6hM12 f) :=
  low_header f 12 5 0x07 (by decide +kernel) (by decide +kernel) (by decide +kernel)

theorem bc6hM13 (f : Bc6hFields) : Statement (.bc6hM13 f) :=
  low_header f 13 5 0x0B (by decide +kernel) (by decide +kernel) (by decide +kernel)

theorem bc6hM14 (f : Bc6hFields) : Statement (.bc6hM14 f) :=
  low_header f 14 5 0x0F (by decide +kernel) (by decide +kernel) (by decide +kernel)

theorem bc6hReserved13 (rest : BitVec 123) : Statement (.bc6hReserved13 rest) :=
  low_append 123 5 rest 0x13#5

theorem bc6hReserved17 (rest : BitVec 123) : Statement (.bc6hReserved17 rest) :=
  low_append 123 5 rest 0x17#5

theorem bc6hReserved1B (rest : BitVec 123) : Statement (.bc6hReserved1B rest) :=
  low_append 123 5 rest 0x1B#5

theorem bc6hReserved1F (rest : BitVec 123) : Statement (.bc6hReserved1F rest) :=
  low_append 123 5 rest 0x1F#5

theorem decBc7 (blk : Block) : Statement (.decBc7 blk) := by
  simp [Statement, bits, row, encode, Cmd.dec]

theorem decBc6hUnsigned (blk : Block) : Statement (.decBc6hUnsigned blk) := by
  simp [Statement, bits, row, encode, Cmd.dec]

theorem decBc6hSigned (blk : Block) : Statement (.decBc6hSigned blk) := by
  simp [Statement, bits, row, encode, Cmd.dec]

theorem encqBc7 (c : Candidate) : Statement (.encqBc7 c) := by
  simp [Statement, bits, row, encode, Cmd.enc]

theorem encqBc6hUnsigned (c : Candidate) : Statement (.encqBc6hUnsigned c) := by
  simp [Statement, bits, row, encode, Cmd.enc]

theorem encqBc6hSigned (c : Candidate) : Statement (.encqBc6hSigned c) := by
  simp [Statement, bits, row, encode, Cmd.enc]

theorem enceBc7 (c : Candidate) : Statement (.enceBc7 c) := by
  simp [Statement, bits, row, encode, Cmd.enc]

theorem enceBc6hUnsigned (c : Candidate) : Statement (.enceBc6hUnsigned c) := by
  simp [Statement, bits, row, encode, Cmd.enc]

theorem enceBc6hSigned (c : Candidate) : Statement (.enceBc6hSigned c) := by
  simp [Statement, bits, row, encode, Cmd.enc]

theorem cmdReservedOp (fmt : BitVec 2) : Statement (.cmdReservedOp fmt) := by
  revert fmt; unfold Statement; decide

theorem cmdReservedFmt (op : BitVec 2) : Statement (.cmdReservedFmt op) := by
  revert op; unfold Statement; decide

end Sys2Proof.Laws.SelectorBits
end

