-- ==== Sys2Proof/Laws/Step.lean ====
section
/-! SUPPORT. Everything a step can do, and what `exec` unfolds to for each family of instructions. -/

namespace Sys2Proof.Machine

/-- Every step is one of seven: reset, a response taken, a response kept, a command accepted and run, nothing to do, a
latched block run, or a state no run reaches. -/
theorem step_cases (s : State) :
    (s.input.rst = true ∧ step s = .next s.afterInput.resetPort) ∨
    (s.input.rst = false ∧ s.rsp ≠ none ∧ s.input.rspReady = true ∧ step s = .next s.afterInput.takeResponse) ∨
    (s.input.rst = false ∧ s.rsp ≠ none ∧ s.input.rspReady = false ∧ step s = .next s.afterInput) ∨
    (∃ c, s.input.rst = false ∧ s.rsp = none ∧ s.busy = false ∧ s.input.cmd = some c ∧
      step s = exec (decode (.cmd c)) s.afterInput) ∨
    (s.input.rst = false ∧ s.rsp = none ∧ s.busy = false ∧ s.input.cmd = none ∧ step s = .next s.afterInput) ∨
    (∃ i, s.input.rst = false ∧ s.rsp = none ∧ s.busy = true ∧ s.ph = .d0 ∧ decodeLatched s.fmt s.blk = some i ∧
      step s = exec i s.afterInput) ∨
    (s.input.rst = false ∧ s.rsp = none ∧ s.busy = true ∧ (s.ph ≠ .d0 ∨ s.fmt = 3) ∧
      step s = .fault .outOfPhase) := by
  cases hr : s.input.rst
  · rcases hp : s.rsp with - | r
    · cases hb : s.busy
      · rcases hc : s.input.cmd with - | c
        · simp [step, stepWith, fetch, hr, hp, hb, hc]
        · simp [step, stepWith, fetch, hr, hp, hb, hc]
      · by_cases hd : s.ph = .d0
        · rcases hl : decodeLatched s.fmt s.blk with - | i
          · have h3 : s.fmt = 3 := by
              by_contra h3
              simp only [decodeLatched, h3, if_false] at hl
              split at hl <;> simp at hl
            simp [step, stepWith, fetch, hr, hp, hb, hd, h3, decodeLatched]
          · simp [step, stepWith, fetch, hr, hp, hb, hd, hl]
        · simp [step, stepWith, fetch, hr, hp, hb, hd]
    · cases hy : s.input.rspReady <;> simp [step, stepWith, fetch, hr, hp, hy]
  · simp [step, hr]

/-- Every instruction answers a next state. -/
theorem exec_answers_next (i : Instr) (s : State) : ∃ t, exec i s = .next t := by
  cases i <;> exact ⟨_, rfl⟩

/-- A BC7 block is interpreted in the block buffer. -/
theorem exec_bc7 (m : Fin 8) (f : Bc7Fields) (s : State) :
    exec (.bc7 m f) s = .next (decodeBc7 tables { s with blk := encode7 m f }) := by
  fin_cases m <;> rfl

/-- A BC6H block is interpreted in the block buffer. -/
theorem exec_bc6h (k : Fin 14) (f : Bc6hFields) (s : State) :
    exec (.bc6h k f) s = .next (decodeBc6h tables { s with blk := encode6 (k + 1) f }) := by
  fin_cases k <;> rfl

theorem encode_bc7 (m : Fin 8) (f : Bc7Fields) : encode (.bc7 m f) = .bc7 (encode7 m f) := by
  fin_cases m <;> rfl

theorem encode_bc6h (k : Fin 14) (f : Bc6hFields) : encode (.bc6h k f) = .bc6h (encode6 (k + 1) f) := by
  fin_cases k <;> rfl

theorem wf_bc7 (m : Fin 8) (f : Bc7Fields) : (Instr.bc7 m f).WF = f.WF m := by
  fin_cases m <;> rfl

theorem wf_bc6h (k : Fin 14) (f : Bc6hFields) : (Instr.bc6h k f).WF = f.WF (k + 1) := by
  fin_cases k <;> rfl

/-- A reserved form is refused at acceptance. -/
theorem exec_reserved (x : BitVec 2) (s : State) :
    exec (.cmdReservedOp x) s = .next (s.acceptBad 3 x) ∧ exec (.cmdReservedFmt x) s = .next (s.acceptBad x 3) :=
  ⟨rfl, rfl⟩

end Sys2Proof.Machine
end

