-- ==== Sys2Proof/Tests/Slice0.lean ====
section
/-! SUPPORT. Tests of the model, and for each obligation with hypotheses a witness that meets them.

Expected values come from the spec: the vectors of 95_test_vectors.md, and the field positions of opcode_table.json
(each stored field below was gathered from the word at the positions that table lists). A test with a letter and a
number in its name is the vector of that name in section 10. -/

namespace Sys2Proof.Tests

open Sys2Proof Sys2Proof.Machine

-- the theorems below are checked one after another
set_option Elab.async false

/-! ## Helpers -/

def f7 (shape rot idxm : Nat) (ep : List (List Nat)) (pb ix1 ix2 : List Nat) : Bc7Fields :=
  ⟨shape, rot, idxm, grid 6 4 fun e c => (ep.getD e []).getD c 0, tab 6 fun k => pb.getD k 0,
    tab 16 fun i => ix1.getD i 0, tab 16 fun i => ix2.getD i 0⟩

def f6 (shape : Nat) (ep : List (List Nat)) (ix : List Nat) : Bc6hFields :=
  ⟨shape, grid 4 3 fun e c => (ep.getD e []).getD c 0, tab 16 fun i => ix.getD i 0⟩

def cand (mode shape rot idxm : Nat) (ep : List (List Int)) (pb : List Nat) (tile : Tile) : Candidate :=
  ⟨BitVec.ofNat 4 mode, BitVec.ofNat 6 shape, BitVec.ofNat 2 rot, BitVec.ofNat 1 idxm,
    grid 6 4 fun e c => BitVec.ofInt 17 ((ep.getD e []).getD c 0), tab 6 fun k => BitVec.ofNat 1 (pb.getD k 0), tile⟩

/-- A `DEC` of block `B` has been accepted. -/
def waiting (fmt : BitVec 2) (B : Block) : State := State.reset.acceptDec fmt B

/-- Command `c` is presented to the idle block. -/
def presented (c : Cmd) : State := { State.reset with inputs := [⟨false, some c, false⟩] }

/-- The state an outcome answers; reset where it answers none. -/
def after (o : Host.Outcome State Fault Refusal) : State := match o with | .next t => t | _ => .reset

def pixels (ch : Lane → List Int) (o : Host.Outcome State Fault Refusal) (at_ : List Nat) : List (List Int) :=
  match (after o).rsp with
  | some ⟨.ok, some t, none, none, none⟩ => at_.map fun i => ch (rd t i 0)
  | _ => []

def pixels7 := pixels fun x => [0, 1, 2, 3].map (chan7 x)

def pixels6 (fmt : BitVec 2) := pixels fun x => [0, 1, 2].map (chan6 (sgOf fmt) x)

def packed (o : Host.Outcome State Fault Refusal) : Option (Block × Nat × List Nat) :=
  match (after o).rsp with
  | some ⟨.ok, none, some B, some n, some e⟩ => some (B, n, e.toList)
  | _ => none

/-! ## The tiles of 95_test_vectors.md -/

def tileG : Tile :=
  tab 16 fun i => pack7 fun c =>
    ([17 * i, 255 - 17 * i, 100,
      [135, 175, 215, 255, 167, 207, 247, 159, 199, 239, 151, 191, 231, 143, 183, 223].getD i 0] : List Nat).getD c 0

def tileT2 : Tile :=
  tab 16 fun i => pack7 fun c => ((if i < 8 then [200, 50, 25, 255] else [10, 120, 240, 255]) : List Nat).getD c 0

def grey (v : Nat) : Tile := tab 16 fun _ => pack6 fun _ => v

def tileF : Tile := grey 9688

def tileNEAR : Tile :=
  tab 16 fun i => pack6 fun c => ((if i < 8 then [15360, 8000, 4000] else [15000, 8200, 4300]) : List Nat).getD c 0

def tileFAR : Tile :=
  tab 16 fun i => pack6 fun c => ((if i < 8 then [15360, 8000, 4000] else [1000, 30000, 200]) : List Nat).getD c 0

def tileS16 : Tile := tab 16 fun i => pack6 fun c => ([-15360 + 2000 * i, 500 * i, -100 * i] : List Int).getD c 0

def tileS3 : Tile := tab 16 fun i => pack6 fun c => ([-3000 + 10 * i, 200 + 5 * i, -50] : List Int).getD c 0

/-- E8b of 95_test_vectors.md section 10.1. -/
def candG : Candidate := cand 6 0 0 0 [[0, 127, 50, 97], [127, 0, 50, 97]] [0, 1] tileG


/-! ## Decoding: words and their fields (95_test_vectors.md section 8, field positions of opcode_table.json) -/

def blockBc7M0 : Block := 0x962C6EC8AB44EF08C88131AAEE216077

theorem test_decode_bc7M0 :
    decode (.bc7 blockBc7M0) = .bc7M0 (f7 11 0 0 [[3, 7, 4, 0], [0, 5, 4, 0], [11, 13, 6, 0], [0, 8, 4, 0], [1, 9, 8, 0], [7, 0, 7, 0]] [1, 1, 1, 0, 0, 1]
      [0, 2, 3, 5, 2, 4, 0, 3, 7, 6, 0, 3, 1, 6, 2, 2] []) := by decide +kernel

def blockBc7M1 : Block := 0xAAE6D29DE1C0B02A6B70D4CF59F033E

theorem test_decode_bc7M1 :
    decode (.bc7 blockBc7M1) = .bc7M1 (f7 15 0 0 [[3, 12, 38, 0], [60, 53, 10, 0], [25, 48, 48, 0], [61, 45, 2, 0]] [0, 0]
      [3, 1, 4, 7, 6, 1, 5, 4, 6, 6, 4, 3, 5, 2, 1, 0] []) := by decide +kernel

def blockBc7M2 : Block := 0x7F316B8911F428FC84ECEAEDFB1DA504

theorem test_decode_bc7M2 :
    decode (.bc7 blockBc7M2) = .bc7M2 (f7 32 0 0 [[18, 21, 7, 0], [22, 14, 10, 0], [3, 22, 8, 0], [27, 19, 31, 0], [15, 16, 8, 0], [27, 28, 4, 0]] []
      [1, 0, 2, 3, 2, 2, 1, 1, 0, 2, 1, 2, 3, 3, 3, 0] []) := by decide +kernel

def blockBc7M3 : Block := 0xF3B369E945CC44F66221C68E029B48C8

theorem test_decode_bc7M3 :
    decode (.bc7 blockBc7M3) = .bc7M3 (f7 12 0 0 [[82, 26, 61, 0], [77, 14, 34, 0], [2, 34, 76, 0], [28, 76, 11, 0]] [1, 0, 1, 0]
      [0, 1, 3, 3, 0, 1, 3, 2, 1, 2, 1, 3, 1, 2, 3, 1] []) := by decide +kernel

def blockBc7M4 : Block := 0x6835674A78A460F04057A22F0818EA90

theorem test_decode_bc7M4 :
    decode (.bc7 blockBc7M4) = .bc7M4 (f7 0 0 1 [[10, 6, 16, 8], [7, 16, 23, 58]] []
      [1, 2, 2, 0, 0, 0, 2, 0, 0, 2, 3, 1, 0, 0, 3, 0] [2, 4, 2, 4, 7, 4, 2, 2, 7, 4, 5, 2, 3, 0, 2, 3]) := by decide +kernel

def blockBc7M5 : Block := 0xDCB766AAAB7C7DEA1E8C7FD10F968D60

theorem test_decode_bc7M5 :
    decode (.bc7 blockBc7M5) = .bc7M5 (f7 0 1 0 [[13, 62, 125, 163], [45, 8, 15, 135]] []
      [0, 1, 3, 3, 2, 3, 3, 0, 2, 3, 3, 2, 1, 1, 1, 1] [1, 2, 2, 2, 2, 1, 2, 1, 3, 1, 3, 2, 0, 3, 1, 3]) := by decide +kernel

def blockBc7M6 : Block := 0x5139640BDE5499E4FCC15B7215143040

theorem test_decode_bc7M6 :
    decode (.bc7 blockBc7M6) = .bc7M6 (f7 0 0 0 [[96, 40, 110, 96], [80, 33, 86, 124]] [1, 0]
      [2, 14, 9, 9, 4, 5, 14, 13, 11, 0, 4, 6, 9, 3, 1, 5] []) := by decide +kernel

def blockBc7M7 : Block := 0xC5BB626B112CB5DEDAF737131C92D280

theorem test_decode_bc7M7 :
    decode (.bc7 blockBc7M7) = .bc7M7 (f7 18 0 0 [[11, 4, 11, 13], [18, 14, 27, 25], [28, 19, 30, 18], [24, 27, 14, 8]] [0, 0, 1, 1]
      [0, 1, 3, 0, 1, 0, 3, 2, 1, 2, 3, 2, 1, 1, 0, 3] []) := by decide +kernel

def blockBc6hM1 : Block := 0x8D7CBDD5DD7B20B0528B204C7EBD87B0

theorem test_decode_bc6hM1 :
    decode (.bc6h blockBc6hM1) = .bc6hM1 (f6 25 [[61, 379, 575], [9, 25, 5], [24, 0, 2], [1, 1, 18]]
      [2, 7, 2, 7, 6, 5, 2, 7, 2, 7, 2, 6, 7, 2, 3, 4]) := by decide +kernel

def blockBc6hM2 : Block := 0x2FEBB3610533DAA2FC0FCED853B2979

theorem test_decode_bc6hM2 :
    decode (.bc6h blockBc6hM2) = .bc6hM2 (f6 25 [[75, 118, 66], [29, 7, 31], [21, 30, 1], [59, 56, 26]]
      [0, 5, 0, 4, 0, 6, 6, 4, 1, 7, 2, 7, 7, 5, 0, 0]) := by decide +kernel

def blockBc6hM3 : Block := 0x7680B996432B59A40DF6D88E8BB8CC42

theorem test_decode_bc6hM3 :
    decode (.bc6h blockBc6hM3) = .bc6hM3 (f6 26 [[610, 1905, 1861], [17, 6, 11], [18, 12, 0], [19, 14, 9]]
      [2, 2, 2, 1, 4, 4, 5, 4, 1, 7, 2, 0, 0, 5, 5, 3]) := by decide +kernel

def blockBc6hM4 : Block := 0xEB02B8F77703759EEB2BB53092366F06

theorem test_decode_bc6hM4 :
    decode (.bc6h blockBc6hM4) = .bc6hM4 (f6 27 [[888, 108, 1097], [6, 29, 6], [15, 10, 7], [11, 21, 8]]
      [0, 0, 2, 3, 7, 6, 5, 7, 0, 7, 2, 1, 0, 6, 2, 7]) := by decide +kernel

def blockBc6hM5 : Block := 0x5F84B657AADB9298C96091D198B411CA

theorem test_decode_bc6hM5 :
    decode (.bc6h blockBc6hM5) = .bc6hM5 (f6 28 [[1166, 360, 204], [10, 4, 18], [12, 8, 22], [5, 12, 8]]
      [2, 5, 5, 2, 5, 7, 2, 1, 3, 6, 2, 2, 0, 7, 7, 2]) := by decide +kernel

def blockBc6hM6 : Block := 0xD406B4B8DDB3AE92A7966D729F32B48E

theorem test_decode_bc6hM6 :
    decode (.bc6h blockBc6hM6) = .bc6hM6 (f6 29 [[420, 101, 335], [14, 19, 15], [9, 22, 5], [29, 18, 1]]
      [0, 3, 3, 7, 6, 0, 7, 2, 2, 6, 2, 3, 0, 0, 5, 6]) := by decide +kernel

def blockBc6hM7 : Block := 0x4889B218108BCA8C85CB4A14A5AF5652

theorem test_decode_bc6hM7 :
    decode (.bc6h blockBc6hM7) = .bc6hM7 (f6 30 [[178, 94, 82], [2, 26, 11], [6, 21, 20], [21, 9, 20]]
      [2, 0, 1, 0, 1, 0, 6, 0, 2, 6, 6, 4, 0, 1, 2, 2]) := by decide +kernel

def blockBc6hM8 : Block := 0xBD0BB1794363E786630026B5AC2DF916

theorem test_decode_bc6hM8 :
    decode (.bc6h blockBc6hM8) = .bc6hM8 (f6 31 [[200, 91, 214], [22, 1, 6], [3, 3, 19], [15, 0, 17]]
      [0, 6, 2, 1, 4, 2, 6, 3, 1, 6, 6, 5, 0, 2, 7, 5]) := by decide +kernel

def blockBc6hM9 : Block := 0x318DAFD9773B038040360256B2AB9CFA

theorem test_decode_bc6hM9 :
    decode (.bc6h blockBc6hM9) = .bc6hM9 (f6 24 [[231, 87, 89], [10, 16, 0], [0, 1, 34], [7, 6, 49]]
      [2, 3, 2, 3, 7, 2, 6, 6, 7, 5, 6, 6, 0, 3, 4, 1]) := by decide +kernel

def blockBc6hM10 : Block := 0xA60FAD39AA13207B1E6BDFF7B9283EBE

theorem test_decode_bc6hM10 :
    decode (.bc6h blockBc6hM10) = .bc6hM10 (f6 25 [[53, 16, 28], [62, 30, 60], [61, 63, 8], [0, 61, 59]]
      [0, 1, 4, 2, 5, 1, 7, 4, 2, 5, 6, 7, 0, 4, 1, 5]) := by decide +kernel

def blockBc6hM11 : Block := 0x1A91AB9ADDEB3C75FCA0BB99BFA6E163

theorem test_decode_bc6hM11 :
    decode (.bc6h blockBc6hM11) = .bc6hM11 (f6 0 [[779, 845, 223], [883, 261, 1017]]
      [2, 7, 12, 3, 11, 14, 13, 13, 10, 9, 11, 10, 1, 9, 10, 1]) := by decide +kernel

def blockBc6hM12 : Block := 0x8F13AAFA10C3586FDAD6973AC6248327

theorem test_decode_bc6hM12 :
    decode (.bc6h blockBc6hM12) = .bc6hM12 (f6 0 [[1049, 1097, 1379], [231, 180, 437]]
      [7, 6, 8, 5, 3, 12, 0, 1, 10, 15, 10, 10, 3, 1, 15, 8]) := by decide +kernel

def blockBc6hM13 : Block := 0x395A85B439B7569B80B74DBCCA226EB

theorem test_decode_bc6hM13 :
    decode (.bc6h blockBc6hM13) = .bc6hM13 (f6 0 [[1335, 324, 3558], [155, 91, 112]]
      [4, 6, 5, 7, 11, 9, 3, 4, 11, 5, 8, 10, 5, 9, 3, 0]) := by decide +kernel

def blockBc6hM14 : Block := 0x7817A6BB777391639640507CD31FC9CF

theorem test_decode_bc6hM14 :
    decode (.bc6h blockBc6hM14) = .bc6hM14 (f6 0 [[1614, 1599, 20073], [15, 2, 12]]
      [1, 6, 1, 9, 3, 7, 7, 7, 11, 11, 6, 10, 7, 1, 8, 7]) := by decide +kernel

/-! ## Decoding: reserved selectors and command keys (R116, R120, R121, R309) -/

theorem test_decode_bc7Reserved :
    decode (.bc7 0xFFFFFFFFFFFFFFFFFFFFFFFFFFFFFF00) = .bc7Reserved 0xFFFFFFFFFFFFFFFFFFFFFFFFFFFFFF := by decide +kernel

theorem test_decode_bc6hReserved13 :
    decode (.bc6h 0x33) = .bc6hReserved13 1 := by decide +kernel

theorem test_decode_bc6hReserved17 :
    decode (.bc6h 0x17) = .bc6hReserved17 0 := by decide +kernel

theorem test_decode_bc6hReserved1B :
    decode (.bc6h 0x1B) = .bc6hReserved1B 0 := by decide +kernel

theorem test_decode_bc6hReserved1F :
    decode (.bc6h 0xFF) = .bc6hReserved1F 7 := by decide +kernel

theorem test_decode_decBc7 :
    decode (.cmd ⟨0, 0, 0x40, candG⟩) = .decBc7 0x40 := by decide +kernel

theorem test_decode_decBc6hUnsigned :
    decode (.cmd ⟨0, 1, 0x40, candG⟩) = .decBc6hUnsigned 0x40 := by decide +kernel

theorem test_decode_decBc6hSigned :
    decode (.cmd ⟨0, 2, 0x40, candG⟩) = .decBc6hSigned 0x40 := by decide +kernel

theorem test_decode_encqBc7 :
    decode (.cmd ⟨1, 0, 0x40, candG⟩) = .encqBc7 candG := by decide +kernel

theorem test_decode_encqBc6hUnsigned :
    decode (.cmd ⟨1, 1, 0x40, candG⟩) = .encqBc6hUnsigned candG := by decide +kernel

theorem test_decode_encqBc6hSigned :
    decode (.cmd ⟨1, 2, 0x40, candG⟩) = .encqBc6hSigned candG := by decide +kernel

theorem test_decode_enceBc7 :
    decode (.cmd ⟨2, 0, 0x40, candG⟩) = .enceBc7 candG := by decide +kernel

theorem test_decode_enceBc6hUnsigned :
    decode (.cmd ⟨2, 1, 0x40, candG⟩) = .enceBc6hUnsigned candG := by decide +kernel

theorem test_decode_enceBc6hSigned :
    decode (.cmd ⟨2, 2, 0x40, candG⟩) = .enceBc6hSigned candG := by decide +kernel

theorem test_decode_cmdReservedOp :
    ∀ fmt, decode (.cmd ⟨3, fmt, 0x40, candG⟩) = .cmdReservedOp fmt := by decide +kernel

theorem test_decode_cmdReservedFmt :
    ∀ op, op ≠ 3 → decode (.cmd ⟨op, 3, 0x40, candG⟩) = .cmdReservedFmt op := by decide +kernel

/-! ## One step of each block (95_test_vectors.md section 8; pixels 0, 1 and 15) -/

theorem test_exec_bc7M0 :
    pixels7 (exec (decode (.bc7 blockBc7M0)) (waiting 0 blockBc7M0)) [0, 1, 15] = [[57, 123, 74, 255], [43, 114, 74, 255], [46, 109, 129, 255]] := by decide +kernel

theorem test_exec_bc7M1 :
    pixels7 (exec (decode (.bc7 blockBc7M1)) (waiting 0 blockBc7M1)) [0, 1, 15] = [[109, 118, 105, 255], [44, 71, 137, 255], [100, 193, 193, 255]] := by decide +kernel

theorem test_exec_bc7M2 :
    pixels7 (exec (decode (.bc7 blockBc7M2)) (waiting 0 blockBc7M2)) [0, 1, 15] = [[159, 154, 65, 255], [148, 173, 57, 255], [123, 132, 66, 255]] := by decide +kernel

theorem test_exec_bc7M3 :
    pixels7 (exec (decode (.bc7 blockBc7M3)) (waiting 0 blockBc7M3)) [0, 1, 15] = [[165, 53, 123, 255], [161, 45, 105, 255], [22, 96, 110, 255]] := by decide +kernel

theorem test_exec_bc7M4 :
    pixels7 (exec (decode (.bc7 blockBc7M4)) (waiting 0 blockBc7M4)) [0, 1, 15] = [[75, 72, 148, 99], [68, 97, 165, 168], [71, 84, 156, 32]] := by decide +kernel

theorem test_exec_bc7M5 :
    pixels7 (exec (decode (.bc7 blockBc7M5)) (waiting 0 blockBc7M5)) [0, 1, 15] = [[154, 124, 251, 26], [144, 89, 178, 47], [135, 89, 178, 47]] := by decide +kernel

theorem test_exec_bc7M6 :
    pixels7 (exec (decode (.bc7 blockBc7M6)) (waiting 0 blockBc7M6)) [0, 1, 15] = [[188, 79, 214, 201], [162, 67, 175, 245], [182, 76, 205, 211]] := by decide +kernel

theorem test_exec_bc7M7 :
    pixels7 (exec (decode (.bc7 blockBc7M7)) (waiting 0 blockBc7M7)) [0, 1, 15] = [[89, 32, 89, 105], [108, 59, 132, 137], [146, 113, 219, 203]] := by decide +kernel

theorem test_exec_bc6hM1 :
    pixels6 1 (exec (decode (.bc6h blockBc6hM1)) (waiting 1 blockBc6hM1)) [0, 1, 15] = [[1984, 11703, 17884], [2185, 11547, 17995], [2067, 11639, 17930]] ∧
    pixels6 2 (exec (decode (.bc6h blockBc6hM1)) (waiting 2 blockBc6hM1)) [0, 1, 15] = [[3969, 23406, -27781], [4371, 23095, -27559], [4135, 23278, -27689]] := by decide +kernel

theorem test_exec_bc6hM2 :
    pixels6 1 (exec (decode (.bc6h blockBc6hM2)) (waiting 1 blockBc6hM2)) [0, 1, 15] = [[18724, 29388, 16492], [23893, 30635, 22017], [18724, 29388, 16492]] ∧
    pixels6 2 (exec (decode (.bc6h blockBc6hM2)) (waiting 2 blockBc6hM2)) [0, 1, 15] = [[-26536, -5208, -31000], [-16197, -2712, -19948], [-26536, -5208, -31000]] := by decide +kernel

theorem test_exec_bc6hM3 :
    pixels6 1 (exec (decode (.bc6h blockBc6hM3)) (waiting 1 blockBc6hM3)) [0, 1, 15] = [[9397, 29561, 28831], [9250, 29481, 28822], [9364, 29574, 28820]] ∧
    pixels6 2 (exec (decode (.bc6h blockBc6hM3)) (waiting 2 blockBc6hM3)) [0, 1, 15] = [[18794, -4396, -5856], [18500, -4555, -5873], [18729, -4370, -5877]] := by decide +kernel

theorem test_exec_bc6hM4 :
    pixels6 1 (exec (decode (.bc6h blockBc6hM4)) (waiting 1 blockBc6hM4)) [0, 1, 15] = [[13771, 1681, 17011], [13771, 1681, 17011], [13864, 1635, 17104]] ∧
    pixels6 2 (exec (decode (.bc6h blockBc6hM4)) (waiting 2 blockBc6hM4)) [0, 1, 15] = [[27543, 3363, -29496], [27543, 3363, -29496], [27729, 3270, -29310]] := by decide +kernel

theorem test_exec_bc6hM5 :
    pixels6 1 (exec (decode (.bc6h blockBc6hM5)) (waiting 1 blockBc6hM5)) [0, 1, 15] = [[18054, 5605, 3108], [18013, 5632, 3013], [18054, 5605, 3108]] ∧
    pixels6 2 (exec (decode (.bc6h blockBc6hM5)) (waiting 2 blockBc6hM5)) [0, 1, 15] = [[-27409, 11210, 6217], [-27491, 11264, 6027], [-27409, 11210, 6217]] := by decide +kernel

theorem test_exec_bc6hM6 :
    pixels6 1 (exec (decode (.bc6h blockBc6hM6)) (waiting 1 blockBc6hM6)) [0, 1, 15] = [[26071, 6293, 20801], [26437, 5952, 21193], [26816, 5600, 21600]] ∧
    pixels6 2 (exec (decode (.bc6h blockBc6hM6)) (waiting 2 blockBc6hM6)) [0, 1, 15] = [[-11470, 12586, -22010], [-10737, 11905, -21225], [-9978, 11200, -20411]] := by decide +kernel

theorem test_exec_bc6hM7 :
    pixels6 1 (exec (decode (.bc6h blockBc6hM7)) (waiting 1 blockBc6hM7)) [0, 1, 15] = [[22203, 11508, 10613], [22878, 10354, 8742], [22203, 11508, 10613]] ∧
    pixels6 2 (exec (decode (.bc6h blockBc6hM7)) (waiting 2 blockBc6hM7)) [0, 1, 15] = [[-19328, 23017, 21227], [-17980, 20708, 17484], [-19328, 23017, 21227]] := by decide +kernel

theorem test_exec_bc6hM8 :
    pixels6 1 (exec (decode (.bc6h blockBc6hM8)) (waiting 1 blockBc6hM8)) [0, 1, 15] = [[24862, 11346, 26598], [23796, 11452, 27237], [23970, 11435, 27132]] ∧
    pixels6 2 (exec (decode (.bc6h blockBc6hM8)) (waiting 2 blockBc6hM8)) [0, 1, 15] = [[-14012, 22692, -10540], [-16143, 22905, -9261], [-15794, 22870, -9470]] := by decide +kernel

theorem test_exec_bc6hM9 :
    pixels6 1 (exec (decode (.bc6h blockBc6hM9)) (waiting 1 blockBc6hM9)) [0, 1, 15] = [[29054, 10292, 11098], [29229, 10013, 11098], [28880, 10571, 11098]] ∧
    pixels6 2 (exec (decode (.bc6h blockBc6hM9)) (waiting 2 blockBc6hM9)) [0, 1, 15] = [[-5626, 20584, 22196], [-5277, 20026, 22196], [-5975, 21142, 22196]] := by decide +kernel

theorem test_exec_bc6hM10 :
    pixels6 1 (exec (decode (.bc6h blockBc6hM10)) (waiting 1 blockBc6hM10)) [0, 1, 15] = [[26536, 8184, 14136], [27163, 9160, 16368], [29744, 13175, 25544]] ∧
    pixels6 2 (exec (decode (.bc6h blockBc6hM10)) (waiting 2 blockBc6hM10)) [0, 1, 15] = [[-11408, 16368, 28272], [-10152, 18321, 23668], [-4991, 26350, 4743]] := by decide +kernel

theorem test_exec_bc6hM11 :
    pixels6 1 (exec (decode (.bc6h blockBc6hM11)) (waiting 1 blockBc6hM11)) [0, 1, 15] = [[24617, 23664, 10389], [25675, 17724, 18466], [24366, 25079, 8466]] ∧
    pixels6 2 (exec (decode (.bc6h blockBc6hM11)) (waiting 2 blockBc6hM11)) [0, 1, 15] = [[-14314, -7284, 11842], [-12198, 1687, 7143], [-14818, -9420, 12961]] := by decide +kernel

theorem test_exec_bc6hM12 :
    pixels6 1 (exec (decode (.bc6h blockBc6hM12)) (waiting 1 blockBc6hM12)) [0, 1, 15] = [[17945, 18319, 20837], [17721, 18144, 20909], [18169, 18493, 20764]] ∧
    pixels6 2 (exec (decode (.bc6h blockBc6hM12)) (waiting 2 blockBc6hM12)) [0, 1, 15] = [[-27627, -26880, -21844], [-28075, -27229, -21699], [-27180, -26532, -21989]] := by decide +kernel

theorem test_exec_bc6hM13 :
    pixels6 1 (exec (decode (.bc6h blockBc6hM13)) (waiting 1 blockBc6hM13)) [0, 1, 15] = [[10142, 2702, 27808], [10032, 2801, 27931], [10350, 2514, 27578]] ∧
    pixels6 2 (exec (decode (.bc6h blockBc6hM13)) (waiting 2 blockBc6hM13)) [0, 1, 15] = [[20284, 5404, -7885], [20064, 5603, -7641], [20700, 5029, -8346]] := by decide +kernel

theorem test_exec_bc6hM14 :
    pixels6 1 (exec (decode (.bc6h blockBc6hM14)) (waiting 1 blockBc6hM14)) [0, 1, 15] = [[781, 774, 9722], [781, 775, 9721], [781, 775, 9721]] ∧
    pixels6 2 (exec (decode (.bc6h blockBc6hM14)) (waiting 2 blockBc6hM14)) [0, 1, 15] = [[1563, 1549, 19445], [1563, 1550, 19443], [1563, 1550, 19443]] := by decide +kernel

/-! ## One step of each command (95_test_vectors.md sections 1.2 and 10) -/

def candE5 : Candidate := cand 1 13 0 0 [[200, 50, 25], [200, 50, 25], [0, 0, 0], [10, 120, 240]] [] tileT2

theorem test_exec_encqBc7_E5 :
    packed (exec (.encqBc7 candE5) .reset) =
      some (0x103C18601E30C002CB236, 120, [80, 40, 0]) := by decide +kernel

def candE6_01 : Candidate := cand 4 0 0 1 [[0, 255, 100, 135], [255, 0, 100, 255]] [] tileG

theorem test_exec_encqBc7_E6_01 :
    packed (exec (.encqBc7 candE6_01) .reset) =
      some (0xFF6B646D2241249CF3CBF89AD07FE090, 6052, [6052, 0, 0]) := by decide +kernel

def candE8r : Candidate := cand 6 0 0 0 [[127, 0, 50, 127], [0, 127, 50, 67]] [1, 0] tileG

theorem test_exec_enceBc7_E8r :
    packed (exec (.enceBc7 candE8r) .reset) =
      some (0xFDCCB998775443117F86C9900FFFC040, 38187, [38187, 0, 0]) := by decide +kernel

def candH2 : Candidate := cand 1 13 0 0 [[15360, 8000, 4000], [15360, 8000, 4000], [15000, 8200, 4300], [15000, 8200, 4300]] [] tileNEAR

theorem test_exec_encqBc6hUnsigned_H2 :
    packed (exec (.encqBc6hUnsigned candH2) .reset) =
      some (0x1BA2920340C0102813DE0, 4472, [2920, 1552, 0]) := by decide +kernel

def candH3_1 : Candidate := cand 1 13 0 0 [[15360, 8000, 4000], [15360, 8000, 4000], [1000, 30000, 200], [1000, 30000, 200]] [] tileFAR

theorem test_exec_encqBc6hUnsigned_H3_1 :
    (after (exec (.encqBc6hUnsigned candH3_1) .reset)).rsp = some (Response.statusOnly .noFit) := by decide +kernel

def candH9 : Candidate := cand 3 0 0 0 [[-3000, 200, -50], [-2850, 275, -50], [-2980, 210, -50], [-2870, 265, -50]] [] tileS3

theorem test_exec_encqBc6hSigned_H9 :
    packed (exec (.encqBc6hSigned candH9) .reset) =
      some (0x6A546E25B0000080800452FFE037402, 2211, [1283, 928, 0]) := by decide +kernel

def candH8 : Candidate := cand 14 0 0 0 [[20000, 20000, 20000], [20007, 19992, 20000]] [] tileF

theorem test_exec_enceBc6hUnsigned_H8 :
    packed (exec (.enceBc6hUnsigned candH8) .reset) =
      some (0x19065193C4110440F, 48, [48, 0, 0]) := by decide +kernel

/-- The quantized endpoints of H4, given to `ENCE`: the response is that of H4, whose `ENCQ` quantizes to them. -/
def candH4 : Candidate := cand 11 0 0 0 [[-247, 0, 0], [236, 120, -24]] [] tileS16

theorem test_exec_enceBc6hSigned_H4 :
    packed (exec (.enceBc6hSigned candH4) .reset) =
      some (0xFEDCBA9876543211F40F076000006123, 303835, [303835, 0, 0]) := by decide +kernel


/-! ## Both steps of a `DEC`, and handshake (R242, R33, R34, R334) -/

/-- The example block of R242. -/
def blockR242 : Block := 0x2AAAAAAAAAAAAAAA8000000000000040

theorem test_exec_decBc7_two_steps :
    pixels7 (step (after (step (presented (.dec 0 blockR242))))) [0, 1, 14, 15] =
      [[1, 1, 1, 1], [0, 0, 0, 0], [0, 0, 0, 0], [1, 1, 1, 1]] := by decide +kernel

/-- Program 3 step 4 of 95_test_vectors.md section 12. -/
theorem test_exec_decBc6hUnsigned_two_steps :
    pixels6 1 (step (after (step (presented (.dec 1 blockR242))))) [0, 4, 12, 15] =
      [[77, 0, 0], [31480, 0, 39], [31480, 0, 100], [77, 0, 0]] := by decide +kernel

/-- Program 2 step 4 of 95_test_vectors.md section 12. -/
theorem test_exec_decBc6hSigned_two_steps :
    pixels6 2 (step (after (step (presented (.dec 2 0x1A104046218F091280BDE))))) [0, 8] =
      [[30256, 16368, 8432], [2480, -4464, 0]] := by decide +kernel

/-- The host takes a response: the block is idle. -/
theorem test_take_response :
    let held := after (step (waiting 0 blockR242))
    let t := after (step { held with inputs := [⟨false, none, true⟩] })
    held.rspValid = true ∧ t.rspValid = false ∧ t.cmdReady = true ∧ t.ph = .idle := by decide +kernel

theorem test_exec_cmdReservedOp : (after (exec (.cmdReservedOp 1) .reset)).rsp = some (Response.statusOnly .badCommand) := by
  decide +kernel

theorem test_exec_cmdReservedFmt : (after (exec (.cmdReservedFmt 2) .reset)).rsp = some (Response.statusOnly .badCommand) := by
  decide +kernel

/-- 95_test_vectors.md section 1.2 Example 3: each reserved selector. -/
theorem test_exec_reserved_selectors :
    ([0, 0xFFFFFFFFFFFFFFFFFFFFFFFFFFFFFF00].map fun B => (after (exec (decode (.bc7 B)) (waiting 0 B))).rsp) =
      List.replicate 2 (some (Response.statusOnly .modeSelector)) ∧
    ([0x13, 0x17, 0x1B, 0x1F, 0x33, 0xFFFFFFFFFFFFFFFFFFFFFFFFFFFFFFFF].map
      fun B => (after (exec (decode (.bc6h B)) (waiting 1 B))).rsp) =
      List.replicate 6 (some (Response.statusOnly .modeSelector)) := by decide +kernel

/-! ## Status codes the supplied tables cannot reach (95_test_vectors.md section 11) -/

/-- `BC6H_LAYOUT[11]` with one entry removed. -/
def tablesShortLayout : Tables := { tables with layout6 := tables.layout6.modify 10 List.dropLast }

/-- `BC7_DESC[6]` with `IP = 3`. -/
def tablesShortIndex : Tables := { tables with desc7 := tables.desc7.modify 6 fun d => { d with IP := 3 } }

/-- `BC7_DESC[5]` with `IP2 = 3`. -/
def tablesLongIndex : Tables := { tables with desc7 := tables.desc7.modify 5 fun d => { d with IP2 := 3 } }

theorem test_headerCount :
    (decodeBc6h tablesShortLayout (waiting 1 0x03)).rsp = some (Response.statusOnly .headerCount) ∧
    let t := decodeBc7 tablesShortIndex (waiting 0 0x40)
    t.rsp = some (Response.statusOnly .headerCount) ∧ t.cur = 112 := by decide +kernel

/-- An `ENC*` over the short layout (log entry 13): the block ends one bit short, and R287 makes that `CursorRange`. -/
theorem test_cursorRange_short :
    let t := encodeBc6h tablesShortLayout false candH4 (State.reset.acceptEnc 2 2 candH4)
    t.rsp = some (Response.statusOnly .cursorRange) ∧ t.cur = 127 := by decide +kernel

/-- An `ENC*` over a layout one entry too long packs positions `0..hdr-1` (R285). -/
theorem test_pack_long_layout :
    let T : Tables := { tables with layout6 := tables.layout6.modify 10 fun l => l ++ [(.d, 0)] }
    packed (.next (encodeBc6h T false candH4 (State.reset.acceptEnc 2 2 candH4))) =
      packed (exec (.enceBc6hSigned candH4) .reset) := by decide +kernel

theorem test_indexOverrun :
    let t := decodeBc7 tablesLongIndex (waiting 0 0x20)
    t.rsp = some (Response.statusOnly .indexOverrun) ∧ t.cur = 126 := by decide +kernel

theorem test_cursorRange :
    let c := cand 5 0 0 0 [] [] (grey 0)
    let t := encodeBc7 tablesLongIndex false c (State.reset.acceptEnc 2 0 c)
    t.rsp = some (Response.statusOnly .cursorRange) ∧ t.cur = 126 := by decide +kernel

/-! ## The vectors of the shared operations (95_test_vectors.md sections 3 to 7) -/

/-- `blk = A5 3C F0 0F 81 7E 00 FF 12 34 56 78 9A BC DE F1`. -/
def blockA5 : Block := 0xF1DEBC9A78563412FF007E810FF03CA5

theorem test_rdbits :
    [(0, 1), (0, 8), (4, 8), (7, 10), (3, 16), (5, 0), (0, 5), (63, 2), (120, 8), (112, 16), (127, 1), (128, 0)].map
        (fun p => rdbits blockA5 p.1 p.2) = [1, 165, 202, 121, 1940, 0, 5, 1, 241, 61918, 1, 0] := by decide +kernel

theorem test_wrbits :
    wrbits 0 6 5 0b10111 = 0x05C0 ∧ wrbits 0x05C0 3 16 0xFFFF = 0x07FFF8 ∧
    wrbits (BitVec.allOnes 128) 4 8 0 = 0xFFFFFFFFFFFFFFFFFFFFFFFFFFFFF00F ∧
    wrbits 0xFFFFFFFFFFFFFFFFFFFFFFFFFFFFF00F 127 1 0 = 0x7FFFFFFFFFFFFFFFFFFFFFFFFFFFF00F ∧
    wrbits 0 10 4 0x1F5 = 0x1400 := by decide +kernel

theorem test_get :
    let s := { State.reset with blk := blockA5, cur := 7 }
    (State.getAll .cursorRange [10] s).1 = [121] ∧ (State.getAll .cursorRange [10] s).2.cur = 17 ∧
    (State.getAll .indexOverrun [122] s).2.cur = 7 ∧ (State.getAll .indexOverrun [122] s).2.status = .indexOverrun := by
  decide +kernel

theorem test_quantizer7 :
    [(200, 7), (200, 5), (255, 5), (3, 5), (4, 5), (254, 7), (255, 7), (255, 8), (7, 4), (8, 4)].map (fun p => q7 p.1 p.2) =
      [100, 25, 31, 0, 1, 127, 127, 255, 0, 1] ∧
    [(100, 7), (25, 5), (31, 5), (1, 4), (15, 4), (127, 7), (1, 6), (63, 6), (200, 8), (0, 5)].map (fun p => uq7 p.1 p.2) =
      [201, 206, 255, 17, 255, 255, 4, 255, 200, 0] := by decide +kernel

theorem test_quantizer6 :
    ([(31743, 10, false), (15360, 10, false), (-15360, 10, true), (-31743, 10, true), (15000, 11, false),
        (-9688, 16, true), (-8000, 11, true)] : List (Int × Nat × Bool)).map (fun p => q6 tables.f16max p.1 p.2.1 p.2.2) =
      [1023, 495, -247, -511, 967, -9688, -258] ∧
    ([(1023, 10, false), (1022, 10, false), (495, 10, false), (-1, 10, true), (-247, 10, true), (-1, 6, true),
        (511, 10, true), (-512, 10, true), (20000, 16, false)] : List (Int × Nat × Bool)).map
        (fun p => uq6 p.1 p.2.1 p.2.2) = [65535, 65440, 31712, -96, -15840, -1536, 32767, -32767, 20000] ∧
    ([(65535, false), (32800, false), (20000, false), (-96, true), (-1, true), (-32768, true), (32767, true)] :
        List (Int × Bool)).map (fun p => fin6 p.1 p.2) = [31743, 15887, 9687, -93, 0, -31744, 31743] := by decide +kernel

theorem test_transform :
    ([(0x1F, 5), (0x0F, 5), (0x10, 5), (1023, 10)] : List (Nat × Nat)).map (fun p => sext p.1 p.2) = [-1, 15, -16, -1] ∧
    invTransform 1023 1 10 false = 0 ∧ invTransform 511 1 10 true = -512 ∧ invTransform 512 (-1) 10 false = 511 ∧
    ([(-16, 5, true), (15, 5, true), (16, 5, true), (1023, 10, false), (1024, 10, false), (-1, 10, false), (8, 4, true)] :
      List (Int × Nat × Bool)).map (fun p => fits p.1 p.2.1 p.2.2) = [true, true, false, true, false, false, false] := by
  decide +kernel

theorem test_palette :
    interp tables 0 255 9 = 36 ∧ interp tables 255 0 9 = 219 ∧ interp tables 65535 65440 27 = 65495 ∧ interp tables (-96) (-192) 55 = -178 ∧
    (List.range 8).map (fun j => pal7 tables (fun e _ => if e = 0 then 0 else 255) 0 3 j 0) =
      [0, 36, 72, 108, 147, 183, 219, 255] ∧
    (List.range 8).map (fun j => pal6 tables { tables.bc6h 1 with IP := 3 } true (fun e _ => if e = 0 then -512 else 511) 0 j 0) =
      [-31743, -22815, -13888, -4960, 4960, 13888, 22815, 31743] := by decide +kernel

theorem test_nearest :
    let find := fun (p pal : List (List Int)) =>
      p.map fun x => nearest (fun j => dist (fun c => x.getD c 0) (fun c => (pal.getD j []).getD c 0) [0, 1, 2, 3]) 3
    find [[10, 10, 10, 255], [42, 42, 42, 255], [127, 127, 127, 255], [128, 128, 128, 255], [0, 0, 0, 0]]
        [[0, 0, 0, 255], [84, 84, 84, 255], [171, 171, 171, 255], [255, 255, 255, 255]] =
      [(0, 300), (0, 5292), (1, 5547), (2, 5547), (0, 65025)] := by decide +kernel

/-- Widths of index entries (95_test_vectors.md section 4). -/
theorem test_index_widths :
    (List.range 16).map (tables.idxWidth 1 17 3) = [2, 3, 2, 3, 3, 3, 3, 3, 3, 3, 3, 3, 3, 3, 3, 3] ∧
    (List.range 16).map (tables.idxWidth 2 10 3) = [2, 3, 3, 3, 3, 3, 2, 3, 3, 3, 3, 3, 3, 3, 3, 2] ∧
    (List.range 16).map (tables.idxWidth 2 26 2) = [1, 2, 2, 2, 2, 2, 1, 2, 1, 2, 2, 2, 2, 2, 2, 2] := by decide +kernel

/-! ## The candidates R275 refuses (the two tables of 95_test_vectors.md section 10) -/

def refused : List (Bool × Fin 3 × Candidate) :=
  [ (true, 0, cand 8 0 0 0 [] [] tileG), (true, 0, cand 6 1 0 0 [] [] tileG), (true, 0, cand 0 16 0 0 [] [] tileG),
    (true, 0, cand 6 0 1 0 [] [] tileG), (true, 0, cand 5 0 0 1 [] [] tileG),
    (true, 0, cand 6 0 0 0 [[256]] [] tileG), (true, 0, cand 6 0 0 0 [[-1]] [] tileG),
    (false, 0, cand 0 0 0 0 [[16]] [] tileG), (false, 0, cand 5 0 0 0 [[128]] [] tileG) ] ++
  [ (true, 1, cand 0 0 0 0 [] [] tileF), (true, 1, cand 15 0 0 0 [] [] tileF), (true, 1, cand 1 32 0 0 [] [] tileF),
    (true, 1, cand 11 1 0 0 [] [] tileF), (true, 1, cand 11 0 1 0 [] [] tileF),
    (true, 1, cand 11 0 0 0 [] [] (grey 31744)), (true, 1, cand 11 0 0 0 [] [] (tab 16 fun _ => pack6 fun _ => -1)),
    (true, 2, cand 11 0 0 0 [] [] (tab 16 fun _ => pack6 fun _ => -31744)),
    (false, 1, cand 11 0 0 0 [[1024]] [] tileF), (false, 2, cand 11 0 0 0 [[512]] [] tileF) ]

theorem test_refusals : ∀ x ∈ refused,
    (after (exec (encInstr x.1 x.2.1 x.2.2) .reset)).rsp = some (Response.statusOnly .badCandidate) := by decide +kernel

/-- The neighbours 95_test_vectors.md section 10 says are accepted. -/
theorem test_accepted_at_the_bounds :
    (after (exec (.encqBc7 (cand 1 63 0 0 [] [] tileG)) .reset)).status = .ok ∧
    (after (exec (.enceBc7 (cand 5 0 0 0 [[127, 0, 0, 255]] [] tileG)) .reset)).status = .ok ∧
    (after (exec (.enceBc6hSigned (cand 11 0 0 0 [[-512, 511]] [] tileF)) .reset)).status = .ok := by decide +kernel

/-! ## WellFormed: an ill-formed term for each check -/

theorem smoke_bc7_shape : ¬ (Instr.bc7M0 (f7 16 0 0 [] [] [] [])).WF := by decide +kernel
theorem smoke_bc7_rot : ¬ (Instr.bc7M6 (f7 0 1 0 [] [] [] [])).WF := by decide +kernel
theorem smoke_bc7_idxm : ¬ (Instr.bc7M5 (f7 0 0 1 [] [] [] [])).WF := by decide +kernel
theorem smoke_bc7_ep : ¬ (Instr.bc7M0 (f7 0 0 0 [[16]] [] [] [])).WF := by decide +kernel
theorem smoke_bc7_ep_absent : ¬ (Instr.bc7M6 (f7 0 0 0 [[], [], [1]] [] [] [])).WF := by decide +kernel
theorem smoke_bc7_pb : ¬ (Instr.bc7M1 (f7 0 0 0 [] [0, 0, 1] [] [])).WF := by decide +kernel
theorem smoke_bc7_ix1 : ¬ (Instr.bc7M1 (f7 13 0 0 [] [] [4] [])).WF := by decide +kernel
theorem smoke_bc7_ix2 : ¬ (Instr.bc7M4 (f7 0 0 0 [] [] [] [4])).WF := by decide +kernel
theorem smoke_bc6h_shape : ¬ (Instr.bc6hM1 (f6 32 [] [])).WF := by decide +kernel
theorem smoke_bc6h_ep : ¬ (Instr.bc6hM14 (f6 0 [[], [16]] [])).WF := by decide +kernel
theorem smoke_bc6h_ix : ¬ (Instr.bc6hM11 (f6 0 [] [8])).WF := by decide +kernel
theorem smoke_cmdReservedFmt : ¬ (Instr.cmdReservedFmt 3).WF := by decide

/-! ## Witnesses: for each obligation with hypotheses, inputs that meet them, clause by clause

An obligation that is not named here has no hypotheses. -/

/-- Every field of BC7 mode `m` at its largest value, fixup pixels included. -/
def top7 (m : Nat) : Bc7Fields :=
  let d := tables.bc7 m
  let shape := 2 ^ d.PB - 1
  ⟨shape, 2 ^ d.RB - 1, 2 ^ d.IB - 1, grid 6 4 fun e c => 2 ^ d.epWidth e c - 1,
    tab 6 fun k => if k < d.NP then 1 else 0, tab 16 fun i => 2 ^ tables.idxWidth d.P shape d.IP i - 1,
    tab 16 fun i => 2 ^ d.idx2Width i - 1⟩

/-- Every field of BC6H mode `mode` at its largest value. -/
def top6 (mode : Nat) : Bc6hFields :=
  let d := tables.bc6h mode
  let shape := 2 ^ d.shapeBits - 1
  ⟨shape, grid 4 3 fun k c => 2 ^ d.epWidth k c - 1, tab 16 fun i => 2 ^ tables.idxWidth d.P shape d.IP i - 1⟩

theorem witness_Bc7DecodeOfEncode :
    ∀ m : Fin 8, (Instr.bc7 m (top7 m)).WF ∧ (Instr.bc7 m (f7 0 0 0 [] [] [] [])).WF := by
  simp only [wf_bc7]
  decide +kernel

theorem witness_Bc6hDecodeOfEncode :
    ∀ k : Fin 14, (Instr.bc6h k (top6 (k + 1))).WF ∧ (Instr.bc6h k (f6 0 [] [])).WF := by
  simp only [wf_bc6h]
  decide +kernel

theorem witness_ReservedAndCommandDecodeOfEncode : (Instr.cmdReservedFmt 0).WF ∧ (Instr.cmdReservedFmt 2).WF := by decide

theorem witness_Bc7SelectorIsUnary :
    (∃ f, decode (.bc7 0x01) = .bc7 0 f) ∧ (∃ f, decode (.bc7 0x80) = .bc7 7 f) ∧
    (∀ k < 7, bit 0x80 k = 0) ∧ bit 0x80 7 = 1 := ⟨⟨_, rfl⟩, ⟨_, rfl⟩, by decide, by decide⟩

theorem witness_Bc6hSelectorIsTwoOrFiveBits :
    (∃ f, decode (.bc6h 0x1C) = .bc6hM1 f) ∧ (∃ f, decode (.bc6h 0x1D) = .bc6hM2 f) ∧
    2 ≤ (2 : Fin 14).val ∧ (∃ f, decode (.bc6h 0x02) = .bc6h 2 f) ∧ (∃ f, decode (.bc6h 0x0F) = .bc6h 13 f) ∧
    (∃ r, decode (.bc6h 0x13) = .bc6hReserved13 r) ∧ (∃ r, decode (.bc6h 0x17) = .bc6hReserved17 r) ∧
    (∃ r, decode (.bc6h 0x1B) = .bc6hReserved1B r) ∧ ∃ r, decode (.bc6h 0x1F) = .bc6hReserved1F r :=
  ⟨⟨_, rfl⟩, ⟨_, rfl⟩, by decide, ⟨_, rfl⟩, ⟨_, rfl⟩, ⟨_, rfl⟩, ⟨_, rfl⟩, ⟨_, rfl⟩, ⟨_, rfl⟩⟩

/-- Accesses that end at block bit 127, and bits on both sides of the field. -/
theorem witness_WriteFieldChangesItsBitsOnly :
    120 + 8 ≤ 128 ∧ 0 + 128 ≤ 128 ∧ 128 + 0 ≤ 128 ∧ (119 < 120 ∨ 120 + 8 ≤ 119) ∧ (128 < 120 ∨ 120 + 8 ≤ 128) := by decide

theorem witness_GetAndPutMoveTheCursor :
    let s := fun n : Nat => { State.reset with cur := n }
    (s 120).cur + 8 ≤ 128 ∧ 128 < (s 121).cur + 8 ∧ 128 < (s 128).cur + 1 ∧ (s 128).cur + 0 ≤ 128 := by decide

theorem witness_SignExtension :
    (0 < 2 ^ 1 ∧ 1 < 2 ^ 1) ∧ (32767 < 2 ^ 16 ∧ 32768 < 2 ^ 16 ∧ 65535 < 2 ^ 16) ∧ (1 ≤ 16 ∧ 16 ≤ 16) := by decide

/-- The quantized endpoints of H2 and H9 (95_test_vectors.md), and an untransformed mode. -/
theorem witness_InverseTransformUndoesForward :
    let g := fun (l : List (List Int)) (e c : Nat) => (l.getD e []).getD c 0
    let h2 := g [[495, 258, 129], [495, 258, 129], [483, 264, 138], [483, 264, 138]]
    let h9 := g [[-96, 6, -1], [-91, 8, -1], [-92, 8, -1], [-96, 6, -1]]
    ((∀ e < (tables.bc6h 1).ne, ∀ c < 3, fits (h2 e c) (tables.bc6h 1).EP false = true) ∧
      fits6 (tables.bc6h 1) false (stored6 (tables.bc6h 1) h2) = true ∧ (tables.bc6h 1).tr = true) ∧
    ((∀ e < (tables.bc6h 3).ne, ∀ c < 3, fits (h9 e c) (tables.bc6h 3).EP true = true) ∧
      fits6 (tables.bc6h 3) true (stored6 (tables.bc6h 3) h9) = true ∧ (tables.bc6h 3).tr = true) ∧
    (∀ e < (tables.bc6h 11).ne, ∀ c < 3, fits (h2 e c) (tables.bc6h 11).EP false = true) := by decide +kernel

theorem witness_InterpolationRange : (0 : Int) ≤ 0 ∧ (64 : Int) ≤ 64 ∧ (0 : Int) ≤ 64 := by decide

theorem witness_PaletteEndsAndMonotonicity :
    (∀ ip ∈ [2, 4], ip < 5 ∧ 2 ≤ ip ∧ 0 < 2 ^ ip - 1) ∧ (tables.bc6h 1).IP = 3 ∧ (tables.bc6h 11).IP = 4 ∧
    (let E := fun e _ : Nat => if e = 0 then (10 : Int) else 20; E 0 0 ≤ E 1 0) ∧
    (let E := fun e _ : Nat => if e = 0 then (20 : Int) else 10; E 1 0 ≤ E 0 0) ∧
    uq6 512 10 false ≥ uq6 511 10 false ∧ uq6 (-512) 10 true ≤ uq6 511 10 true := by decide +kernel

theorem witness_PaletteMirror : (∀ ip ∈ [2, 3, 4], ip < 5 ∧ 2 ≤ ip ∧ 0 < 2 ^ ip ∧ 2 ^ ip - 1 < 2 ^ ip) ∧ (tables.bc6h 14).IP = 4 := by
  decide +kernel

theorem witness_Bc7SamplePacking :
    let x : Lane := 0xFFFFFFFF04030201
    let y : Lane := 0x04030201
    x.toNat % 2 ^ 32 = y.toNat % 2 ^ 32 ∧
    (let v := fun c : Nat => if c = 3 then (255 : Int) else 0; ∀ c < 4, 0 ≤ v c ∧ v c ≤ 255) := by decide

theorem witness_Bc6hSamplePacking :
    let x : Lane := 0xFFFF84008400FC00
    let y : Lane := 0x84008400FC00
    x.toNat % 2 ^ 48 = y.toNat % 2 ^ 48 ∧
    (let v := fun c : Nat => if c = 0 then (-32768 : Int) else 32767; ∀ c < 3, -32768 ≤ v c ∧ v c ≤ 32767) ∧
    (let v := fun c : Nat => if c = 0 then (0 : Int) else 65535; ∀ c < 3, 0 ≤ v c ∧ v c ≤ 65535) := by decide

theorem witness_RotationIsASwap : (1 < 4 ∧ 1 ≤ 1) ∧ (3 < 4 ∧ 1 ≤ 3) ∧ (1 < 3 ∧ 1 ≠ 1 - 1) := by decide

theorem witness_Bc7EndpointValues : (0 < 6 ∧ 0 < 3) ∧ (5 < 6 ∧ 2 < 3) ∧ 3 < 4 ∧ 1 < 2 := by decide

theorem witness_Bc7BlocksDecodeToTheirTile :
    (∀ m : Fin 8, (Instr.bc7 m (top7 m)).WF) ∧ 0 < (tables.bc7 4).IP2 ∧ 0 < (tables.bc7 5).IP2 :=
  ⟨fun m => (witness_Bc7DecodeOfEncode m).1, by decide, by decide⟩

theorem witness_Bc6hBlocksDecodeToTheirTile : ∀ k : Fin 14, (Instr.bc6h k (top6 (k + 1))).WF :=
  fun k => (witness_Bc6hDecodeOfEncode k).1

/-- Every mode in both formats; mode 14 signed is the one whose range differs. -/
theorem witness_Bc6hOutputRange :
    (∀ k : Fin 14, (Instr.bc6h k (top6 (k + 1))).WF ∧ ∃ t, exec (.bc6h k (top6 (k + 1))) (waiting 1 0) = .next t) ∧
    sgOf (waiting 1 0).fmt = false ∧ sgOf (waiting 2 0).fmt = true ∧ (tables.bc6h 1).EP < 16 ∧ (13 : Fin 14).val = 13 :=
  ⟨fun k => ⟨(witness_Bc6hDecodeOfEncode k).1, exec_answers_next _ _⟩, by decide, by decide, by decide, by decide⟩

theorem witness_ReservedSelectorsRaise :
    blockByte 0xFFFFFFFFFFFFFFFFFFFFFFFFFFFFFF00 0 = 0x00#8 ∧
    ∀ x ∈ [0x13, 0x17, 0x1B, 0x1F], rdbits (BitVec.ofNat 128 (x + 0x20)) 0 5 = x := by decide +kernel

theorem witness_BlockFrames :
    (∀ m : Fin 8, (Instr.bc7 m (top7 m)).WF ∧ ∃ t, exec (.bc7 m (top7 m)) (waiting 0 0) = .next t) ∧
    (∀ k : Fin 14, ∃ t, exec (.bc6h k (top6 (k + 1))) (waiting 2 0) = .next t) ∧
    (tables.bc7 6).ne ≤ 2 ∧ (tables.bc7 0).nch ≤ 3 ∧ (tables.bc7 1).NP ≤ 2 ∧ (tables.bc7 0).IP2 = 0 :=
  ⟨fun m => ⟨(witness_Bc7DecodeOfEncode m).1, exec_answers_next _ _⟩, fun _ => exec_answers_next _ _,
    by decide, by decide, by decide, by decide⟩

theorem presented_presents (c : Cmd) : (presented c).Presents c := ⟨rfl, rfl, rfl, rfl⟩

theorem witness_DecAnswersTheReference :
    ∀ fmt ∈ ([0, 1, 2] : List (BitVec 2)),
      (presented (.dec fmt blockR242)).Presents (.dec fmt blockR242) ∧ (Cmd.dec fmt blockR242).op = 0 ∧
      (Cmd.dec fmt blockR242).fmt ≠ 3 ∧ ((presented (.dec fmt blockR242)).inputs.tail.headD .quiet).rst = false := by
  intro fmt h
  refine ⟨presented_presents _, rfl, ?_, rfl⟩
  revert fmt
  decide

/-- A one-region, a two-region and a dual-index candidate, of both commands. -/
theorem witness_Bc7EncodePacksTheCandidate :
    ValidBc7 tables true candE5 ∧ ValidBc7 tables true candE6_01 ∧ ValidBc7 tables false candE8r ∧ ValidBc7 tables false candG ∧
    0 < (tables.bc7 candE6_01.mode.toNat).IP2 := by decide +kernel

theorem witness_Bc6hEncodePacksTheCandidate :
    ((1 : Fin 3) ≠ 0 ∧ ValidBc6h tables true false candH2 ∧ FitsBc6h true false candH2) ∧
    ((2 : Fin 3) ≠ 0 ∧ ValidBc6h tables true true candH9 ∧ FitsBc6h true true candH9) ∧
    (ValidBc6h tables false false candH8 ∧ FitsBc6h false false candH8) ∧
    (ValidBc6h tables false true candH4 ∧ FitsBc6h false true candH4) := by
  unfold FitsBc6h
  refine ⟨⟨?_, ?_, ?_⟩, ⟨?_, ?_, ?_⟩, ⟨?_, ?_⟩, ?_, ?_⟩ <;> decide +kernel

/-- H3.1: valid, and does not fit. -/
theorem witness_NoFitExactlyWhereAFieldDoesNotFit :
    (1 : Fin 3) ≠ 0 ∧ ValidBc6h tables true false candH3_1 ∧ ¬ FitsBc6h true false candH3_1 ∧
    (after (exec (encInstr true 1 candH3_1) .reset)).status = .noFit := by
  unfold FitsBc6h
  decide +kernel

theorem witness_InvalidCandidateIsRefused : ∀ x ∈ refused, ¬ ValidCandidate x.1 x.2.1 x.2.2 := by
  unfold ValidCandidate
  decide +kernel

theorem witness_EncodingAlwaysHasACandidate :
    ValidCandidate true 0 candE5 ∧ (ValidCandidate false 2 candH4 ∧ candH4.mode = 11) ∧
    ValidCandidate true 1 (cand 10 31 0 0 [[31743, 0, 0], [0, 31743, 0]] [] tileFAR) := by
  refine ⟨?_, ⟨?_, rfl⟩, ?_⟩ <;> unfold ValidCandidate <;> decide +kernel

theorem witness_EncqPBitVote :
    (5 < (tables.bc7 0).NP ∧ 1 < (tables.bc7 1).NP) ∧ 0 < (tables.bc7 7).NP ∧ 3 < (tables.bc7 7).nch ∧ (tables.bc7 4).NP = 0 := by
  decide

/-- The indices of array 1 all `v`, of array 2 all `w`. -/
def indexed (m shape v w : Nat) : State :=
  { State.reset with mode := m, shape := shape, ix1 := tab 16 fun _ => v, ix2 := tab 16 fun _ => w }

/-- Modes with one array: every index has its high bit set. -/
theorem witness_FixupClearsTheHighBit_bc7 : ∀ x ∈ [(6, 0, 15), (0, 15, 7), (7, 63, 3)],
    (indexed x.1 x.2.1 x.2.2 0).shape < 2 ^ (tables.bc7 x.1).PB ∧
    ∀ i < 16, rd (indexed x.1 x.2.1 x.2.2 0).ix1 i 0 < 2 ^ (tables.bc7 x.1).IP := by decide +kernel

/-- Modes with two arrays. -/
theorem witness_FixupClearsTheHighBit_dual : ∀ x ∈ [(4, 3, 7), (5, 3, 3)],
    (indexed x.1 0 x.2.1 x.2.2).shape < 2 ^ (tables.bc7 x.1).PB ∧ 0 < (tables.bc7 x.1).IP2 ∧
    ∀ i < 16, rd (indexed x.1 0 x.2.1 x.2.2).ix1 i 0 < 2 ^ (tables.bc7 x.1).IP ∧
      rd (indexed x.1 0 x.2.1 x.2.2).ix2 i 0 < 2 ^ (tables.bc7 x.1).IP2 := by decide +kernel

theorem witness_FixupClearsTheHighBit_bc6h : ∀ x ∈ [(1, 31, 7), (14, 0, 15)],
    1 ≤ x.1 ∧ x.1 < 15 ∧ (indexed x.1 x.2.1 x.2.2 0).shape < 2 ^ (tables.bc6h x.1).shapeBits ∧
    ∀ i < 16, rd (indexed x.1 x.2.1 x.2.2 0).ix1 i 0 < 2 ^ (tables.bc6h x.1).IP := by decide +kernel

theorem witness_Bc7RoundTripLaw :
    ∀ x ∈ [(true, candE5), (true, candE6_01), (false, candE8r)],
      (∃ t, exec (encInstr x.1 0 x.2) .reset = .next t) ∧ (after (exec (encInstr x.1 0 x.2) .reset)).status = .ok :=
  fun _ h => ⟨exec_answers_next _ _, by revert h; revert ‹Bool × Candidate›; decide +kernel⟩

theorem witness_Bc6hRoundTripLaw :
    ∀ x ∈ ([(true, 1, candH2), (true, 2, candH9), (false, 1, candH8), (false, 2, candH4)] : List (Bool × Fin 3 × Candidate)),
      x.2.1 ≠ 0 ∧ (∃ t, exec (encInstr x.1 x.2.1 x.2.2) .reset = .next t) ∧
      (after (exec (encInstr x.1 x.2.1 x.2.2) .reset)).status = .ok ∧
      (waiting (BitVec.ofNat 2 x.2.1) 0).fmt = BitVec.ofNat 2 x.2.1 :=
  fun x h => ⟨by revert x; decide +kernel, exec_answers_next _ _, by revert x; decide +kernel, rfl⟩

theorem witness_EncodeFrames :
    (∃ t, exec (encInstr true 0 candE5) .reset = .next t) ∧ (tables.bc7 candE5.mode.toNat).IP2 = 0 ∧
    ∃ t, exec (encInstr false 2 candH4) .reset = .next t :=
  ⟨exec_answers_next _ _, by decide +kernel, exec_answers_next _ _⟩

theorem witness_FaultsArePrecise :
    (decodeBc7 tables (waiting 0 0)).ph = .fault ∧ (decodeBc6h tables (waiting 1 0x13)).ph = .fault ∧
    (let c := cand 8 0 0 0 [] [] tileG; (encodeBc7 tables true c (State.reset.acceptEnc 1 0 c)).ph = .fault) ∧
    (encodeBc6h tables true candH3_1 (State.reset.acceptEnc 1 1 candH3_1)).ph = .fault ∧
    (encodeBc6h tables true candH3_1 (State.reset.acceptEnc 1 1 candH3_1)).status ≠ .cursorRange := by decide +kernel

theorem witness_TableFaultsAreUnreachable : (Instr.bc7 4 (top7 4)).WF ∧ (Instr.encqBc7 candE5).WF ∧ (Instr.cmdReservedFmt 1).WF :=
  ⟨(witness_Bc7DecodeOfEncode 4).1, trivial, by decide⟩

theorem witness_StepRunsTheDecodedInstruction :
    (presented (.enc 1 0 candE5)).Presents (.enc 1 0 candE5) ∧
    ∀ fmt ∈ ([0, 1, 2] : List (BitVec 2)),
      let s := waiting fmt blockR242
      s.busy = true ∧ s.rsp = none ∧ s.ph = .d0 ∧ s.input.rst = false ∧ (s.fmt = 0 ∨ s.fmt = 1 ∨ s.fmt = 2) :=
  ⟨presented_presents _, by decide +kernel⟩

theorem witness_BusyIgnoresCommands : (waiting 0 blockR242).busy = true ∧ (after (step (waiting 0 blockR242))).busy = true := by
  decide +kernel

theorem witness_ResponseStaysUntilTaken :
    let held := fun rdy => { after (step (waiting 0 blockR242)) with inputs := [⟨false, none, rdy⟩] }
    (held true).rsp.isSome = true ∧ (held true).input.rst = false ∧ (held true).input.rspReady = true ∧
    (held false).rsp.isSome = true ∧ (held false).input.rspReady = false := by decide +kernel

theorem witness_ResetAbandonsTheOperation :
    ({ waiting 0 blockR242 with inputs := [⟨true, none, false⟩] } : State).input.rst = true := by decide

/-- Every command against itself; and two `DEC` of one block, two `ENCQ` of one candidate and two reserved commands that
differ in what they ignore. -/
theorem witness_EveryCommandHasOneResponse :
    (∀ c : Cmd, SameOperands c c ∧ (presented c).Presents c ∧ ∀ p ∈ (presented c).inputs, p.rst = false) ∧
    SameOperands ⟨0, 2, 0x13, candG⟩ ⟨0, 2, 0x13, Candidate.zero⟩ ∧
    SameOperands ⟨1, 0, 0x13, candG⟩ ⟨1, 0, 0, candG⟩ ∧
    SameOperands ⟨0, 3, 0x13, candG⟩ ⟨0, 3, 0, Candidate.zero⟩ ∧
    SameOperands ⟨3, 1, 0x13, candG⟩ ⟨3, 1, 0, Candidate.zero⟩ :=
  ⟨fun c => ⟨by simp [SameOperands], presented_presents c, by simp [presented]⟩, by simp [SameOperands],
    by simp [SameOperands], by simp [SameOperands], by simp [SameOperands]⟩

/-- A coherent state that waits, one that answers and one that faulted. -/
theorem witness_StepKeepsCoherence :
    (waiting 2 blockR242).Coherent ∧ (State.reset.acceptBad 3 0).Coherent ∧ (waiting 0 blockR242).respondDec.Coherent := by
  refine ⟨⟨by decide, by decide, by decide, by simp [waiting, State.acceptDec, State.accept]⟩,
    ⟨by decide, by decide, by decide, fun r h => ?_⟩, ⟨by decide, by decide, by decide, fun r h => ?_⟩⟩
  · obtain rfl : Response.statusOnly .badCommand = r := Option.some.inj h
    refine ⟨rfl, ?_, by decide⟩
    unfold Response.Valid
    decide
  · obtain rfl : Response.decoded (waiting 0 blockR242).pix = r := Option.some.inj h
    refine ⟨rfl, ?_, by decide⟩
    unfold Response.Valid
    decide

theorem witness_StepKeepsRegistersInRange : (presented (.enc 1 0 candE5)).InRange ∧ ∃ t, step (presented (.enc 1 0 candE5)) = .next t :=
  ⟨⟨by decide, by decide, by decide, by decide, by decide, by decide +kernel, by decide +kernel, by decide +kernel,
    by decide +kernel, by decide +kernel, by decide⟩, ⟨_, rfl⟩⟩

end Sys2Proof.Tests
end

section
/-! PROOFS. The packing of BC7 samples in a port lane (R24). -/

namespace Sys2Proof.Machine

/-- Appending at the low end, as arithmetic: the high part counts in units of `2 ^ n`. -/
theorem toNat_append_eq_add {m n : Nat} (x : BitVec m) (y : BitVec n) :
    (x ++ y).toNat = x.toNat * 2 ^ n + y.toNat := by
  rw [BitVec.toNat_append, ← Nat.shiftLeft_add_eq_or_of_lt y.isLt, Nat.shiftLeft_eq]

/-- A channel is a byte of its lane, for every channel number. -/
theorem chan7_eq (x : Lane) (c : Nat) : chan7 x c = (x.toNat / 2 ^ (8 * c) % 256 : Nat) := by
  rw [chan7, BitVec.extractLsb'_toNat, Nat.shiftRight_eq_div_pow]

/-- The four channels of R24 lie in the low word, so bits 63:32 do not reach them. -/
theorem chan7_eq_of_low_word (x : Lane) {c : Nat} (hc : c < 4) :
    chan7 x c = (x.toNat % 2 ^ 32 / 2 ^ (8 * c) % 256 : Nat) := by
  rw [chan7_eq]
  interval_cases c <;> omega

/-- A packed sample is the base-256 numeral of its channels, each taken modulo 256, with R lowest. -/
theorem pack7_toNat (v : Nat → Int) :
    ((pack7 v).toNat : Int) = v 3 % 256 * 2 ^ 24 + v 2 % 256 * 2 ^ 16 + v 1 % 256 * 2 ^ 8 + v 0 % 256 := by
  have hbyte (n : Int) : ((BitVec.ofInt 8 n).toNat : Int) = n % 256 := by
    rw [BitVec.toNat_ofInt]
    omega
  rw [pack7, toNat_append_eq_add, toNat_append_eq_add, toNat_append_eq_add, toNat_append_eq_add]
  push_cast [hbyte]
  ring

theorem pack7_lt (v : Nat → Int) : (pack7 v).toNat < 2 ^ 32 := by
  have h := pack7_toNat v
  omega

/-- Packing keeps each channel modulo 256, whatever the channels. -/
theorem chan7_pack7 (v : Nat → Int) {c : Nat} (hc : c < 4) : chan7 (pack7 v) c = v c % 256 := by
  have h := pack7_toNat v
  rw [chan7_eq]
  interval_cases c <;> omega

/-- Settles O26: a channel is a byte of the low word of its lane, and packing writes the base-256 numeral of the
channels, whose digits in 0..255 are read back unchanged. -/
theorem bc7SamplePacking : Obligations.Bc7SamplePacking := by
  refine ⟨fun x c _ => chan7_eq x c, fun x y hxy c hc => ?_, fun v hv => ⟨fun c hc => ?_, pack7_lt v⟩⟩
  · rw [chan7_eq_of_low_word x hc, chan7_eq_of_low_word y hc, hxy]
  · obtain ⟨hlo, hhi⟩ := hv c hc
    rw [chan7_pack7 v hc, Int.emod_eq_of_lt hlo (by omega)]

end Sys2Proof.Machine
end

section
/-! PROOFS. What a field read returns, bit by bit (R141). -/

namespace Sys2Proof

theorem testBit_bit_shiftLeft (B : Block) (n w k : Nat) :
    (bit B n <<< w).testBit k = (decide (k = w) && B.getLsbD n) := by
  have hk : (w ≤ k ∧ k - w = 0) ↔ k = w := by omega
  rw [bit, Nat.testBit_shiftLeft, Nat.testBit_bool_toNat, ← Bool.and_assoc, ← Bool.decide_and, decide_eq_decide.mpr hk]

/-- Bit `k` of a field is block bit `off + k`, and a field has no bits past its width. -/
theorem testBit_rdbits (B : Block) (off w k : Nat) :
    (rdbits B off w).testBit k = (decide (k < w) && B.getLsbD (off + k)) := by
  induction w with
  | zero => simp [rdbits_zero]
  | succ w ih =>
    rw [rdbits_succ, Nat.testBit_or, ih, testBit_bit_shiftLeft]
    rcases lt_trichotomy k w with h | rfl | h
    · simp [h, h.ne, h.trans (Nat.lt_succ_self w)]
    · simp
    · simp [h.not_gt, h.ne', (Nat.succ_le_of_lt h).not_gt]

theorem rdbits_lt (B : Block) (off w : Nat) : rdbits B off w < 2 ^ w :=
  Nat.lt_pow_two_of_testBit _ fun k hk => by simp [testBit_rdbits, hk.not_gt]

/-- A shorter field at the same place is the low part of a longer one. -/
theorem rdbits_mod_two_pow (B : Block) (off : Nat) {v w : Nat} (h : v ≤ w) :
    rdbits B off w % 2 ^ v = rdbits B off v := by
  apply Nat.eq_of_testBit_eq
  intro k
  rw [Nat.testBit_mod_two_pow, testBit_rdbits, testBit_rdbits]
  by_cases hk : k < v
  · simp [hk, hk.trans_le h]
  · simp [hk]

/-- The low bits of the block word under a mask are the field at block bit 0. -/
theorem toNat_and_two_pow_sub_one (B : Block) (w : Nat) : B.toNat &&& (2 ^ w - 1) = rdbits B 0 w := by
  apply Nat.eq_of_testBit_eq
  intro k
  rw [Nat.and_two_pow_sub_one_eq_mod, Nat.testBit_mod_two_pow, BitVec.testBit_toNat, testBit_rdbits, Nat.zero_add]

theorem bit_le_one (B : Block) (n : Nat) : bit B n ≤ 1 := Bool.toNat_le _

theorem bit_eq_zero_iff (B : Block) (n : Nat) : bit B n = 0 ↔ B.getLsbD n = false := Bool.toNat_eq_zero

theorem bit_eq_one_iff (B : Block) (n : Nat) : bit B n = 1 ↔ B.getLsbD n = true := Bool.toNat_eq_one

theorem rdbits_eq_zero_iff (B : Block) (off w : Nat) : rdbits B off w = 0 ↔ ∀ k < w, bit B (off + k) = 0 := by
  simp only [bit_eq_zero_iff]
  refine ⟨fun h k hk => ?_, fun h => Nat.zero_of_testBit_eq_false fun k => ?_⟩
  · simpa [testBit_rdbits, hk] using congrArg (Nat.testBit · k) h
  · rw [testBit_rdbits]
    by_cases hk : k < w <;> simp [hk, h]

/-- A field is its lower bits plus the weight of its top bit. -/
theorem rdbits_succ_eq_add (B : Block) (off w : Nat) :
    rdbits B off (w + 1) = bit B (off + w) * 2 ^ w + rdbits B off w := by
  rw [rdbits_succ, Nat.lor_comm, ← Nat.shiftLeft_add_eq_or_of_lt (rdbits_lt B off w), Nat.shiftLeft_eq]

/-- A field reads `2 ^ m` in `m + 1` bits where its top bit is set and no other. -/
theorem rdbits_eq_two_pow_iff (B : Block) (off m : Nat) :
    rdbits B off (m + 1) = 2 ^ m ↔ (∀ k < m, bit B (off + k) = 0) ∧ bit B (off + m) = 1 := by
  have hlow := rdbits_lt B off m
  rw [rdbits_succ_eq_add, ← rdbits_eq_zero_iff]
  rcases Nat.le_one_iff_eq_zero_or_eq_one.mp (bit_le_one B (off + m)) with h | h
  · simp [h, hlow.ne]
  · simp [h]

end Sys2Proof
end

section
/-! PROOFS. The selectors (R82, R96): which block decodes to which mode. A decoded instruction is told apart from the
others by its row of the opcode table (`SelectorBits.row`). -/

namespace Sys2Proof

open Laws.SelectorBits

/-! ## BC7 -/

theorem row_bc7 (m : Fin 8) (f : Bc7Fields) : row (.bc7 m f) = (2 ^ m.val, 2 ^ (m.val + 1) - 1) := by
  fin_cases m <;> rfl

theorem selector7_eq_some_iff (B : Block) (m : Fin 8) :
    selector7 B = some m.val ↔ (∀ k < m.val, bit B k = 0) ∧ bit B m = 1 := by
  simp [selector7, List.find?_range_eq_some, bit_eq_zero_iff, bit_eq_one_iff, and_comm]

theorem selector7_eq_none_iff (B : Block) : selector7 B = none ↔ ∀ k < 8, bit B k = 0 := by
  simp [selector7, bit_eq_zero_iff]

theorem selector7_lt (B : Block) {m : Nat} (h : selector7 B = some m) : m < 8 := by
  simpa using List.mem_of_find?_eq_some h

theorem decode_bc7_of_selector7 {B : Block} {m : Fin 8} (h : selector7 B = some m.val) :
    decode (.bc7 B) = .bc7 m (parse7 tables m B) := by
  simp [decode, decodeBc7Block, h]

theorem decode_bc7_of_selector7_none {B : Block} (h : selector7 B = none) :
    decode (.bc7 B) = .bc7Reserved (B.extractLsb' 8 120) := by
  simp [decode, decodeBc7Block, h]

/-- A BC7 block has the bits of the row it is decoded to. -/
theorem decode_bc7_matches_row (B : Block) :
    B.toNat &&& (row (decode (.bc7 B))).2 = (row (decode (.bc7 B))).1 := by
  rcases h : selector7 B with - | m
  · have hbits := (selector7_eq_none_iff B).mp h
    rw [decode_bc7_of_selector7_none h]
    exact (toNat_and_two_pow_sub_one B 8).trans <| (rdbits_eq_zero_iff B 0 8).mpr <| by simpa using hbits
  · lift m to Fin 8 using selector7_lt B h
    have hbits := (selector7_eq_some_iff B m).mp h
    rw [decode_bc7_of_selector7 h, row_bc7]
    exact (toNat_and_two_pow_sub_one B _).trans <| (rdbits_eq_two_pow_iff B 0 m).mpr <| by simpa using hbits

theorem exists_decode_bc7_iff (B : Block) (m : Fin 8) :
    (∃ f, decode (.bc7 B) = .bc7 m f) ↔ rdbits B 0 (m + 1) = 2 ^ m.val := by
  constructor
  · rintro ⟨f, h⟩
    have hrow := decode_bc7_matches_row B
    rwa [h, row_bc7, toNat_and_two_pow_sub_one] at hrow
  · intro h
    have hbits := (rdbits_eq_two_pow_iff B 0 m).mp h
    simp only [Nat.zero_add] at hbits
    exact ⟨_, decode_bc7_of_selector7 ((selector7_eq_some_iff B m).mpr hbits)⟩

/-- Settles O6: a block decodes to mode `m` where its first `m + 1` bits read `2 ^ m`, that is, where bit `m` alone of
them is set. -/
theorem bc7SelectorIsUnary : Obligations.Bc7SelectorIsUnary := by
  intro B m
  rw [exists_decode_bc7_iff]
  refine ⟨?_, id⟩
  simpa using rdbits_eq_two_pow_iff B 0 m

/-! ## BC6H -/

theorem row_bc6h (k : Fin 14) (f : Bc6hFields) :
    row (.bc6h k f) = ((tables.bc6h (k + 1)).sel, 2 ^ (tables.bc6h (k + 1)).selw - 1) := by
  fin_cases k <;> rfl

/-- The five-bit values that are no mode's selector (R116). -/
def reservedSelectors : List Nat := [0x13, 0x17, 0x1B, 0x1F]

/-- A mode's selector is found exactly where the first `selw` bits of the block are its `sel`. -/
theorem selector6_eq_some_iff (B : Block) (k : Fin 14) :
    selector6 tables B = some (k.val + 1) ↔
      rdbits B 0 (tables.bc6h (k + 1)).selw = (tables.bc6h (k + 1)).sel := by
  have hw : (tables.bc6h (k + 1)).selw ≤ 5 := by revert k; decide
  have hlt : rdbits B 0 5 < 32 := rdbits_lt B 0 5
  rw [← rdbits_mod_two_pow B 0 hw, selector6]
  generalize rdbits B 0 5 = v at hlt
  revert k v
  decide +kernel

theorem exists_of_selector6_eq_some {B : Block} {mode : Nat} (h : selector6 tables B = some mode) :
    ∃ k : Fin 14, mode = k.val + 1 := by
  simp only [selector6] at h
  split_ifs at h
  · exact ⟨0, (Option.some.inj h).symm⟩
  · exact ⟨1, (Option.some.inj h).symm⟩
  · obtain ⟨i, hi, rfl⟩ := Option.map_eq_some_iff.mp h
    obtain ⟨hlt, -⟩ := List.findIdx?_eq_some_iff_getElem.mp hi
    exact ⟨⟨i, hlt⟩, rfl⟩

theorem selector6_eq_none_iff (B : Block) : selector6 tables B = none ↔ rdbits B 0 5 ∈ reservedSelectors := by
  have hlt : rdbits B 0 5 < 32 := rdbits_lt B 0 5
  rw [selector6]
  generalize rdbits B 0 5 = v at hlt
  revert v
  decide +kernel

theorem decode_bc6h_of_selector6 {B : Block} {k : Fin 14} (h : selector6 tables B = some (k.val + 1)) :
    decode (.bc6h B) = .bc6h k (parse6 tables (k + 1) B) := by
  simp [decode, decodeBc6hBlock, h]

theorem decode_bc6h_of_reserved (B : Block) :
    (rdbits B 0 5 = 0x13 → decode (.bc6h B) = .bc6hReserved13 (B.extractLsb' 5 123)) ∧
    (rdbits B 0 5 = 0x17 → decode (.bc6h B) = .bc6hReserved17 (B.extractLsb' 5 123)) ∧
    (rdbits B 0 5 = 0x1B → decode (.bc6h B) = .bc6hReserved1B (B.extractLsb' 5 123)) ∧
    (rdbits B 0 5 = 0x1F → decode (.bc6h B) = .bc6hReserved1F (B.extractLsb' 5 123)) := by
  have hnone := (selector6_eq_none_iff B).mpr
  refine ⟨?_, ?_, ?_, ?_⟩ <;> intro h <;> rw [h] at hnone <;>
    simp [decode, decodeBc6hBlock, hnone (by decide), h]

/-- A BC6H block has the bits of the row it is decoded to. -/
theorem decode_bc6h_matches_row (B : Block) :
    B.toNat &&& (row (decode (.bc6h B))).2 = (row (decode (.bc6h B))).1 := by
  have h5 : B.toNat &&& 0x1F = rdbits B 0 5 := toNat_and_two_pow_sub_one B 5
  obtain ⟨h13, h17, h1B, h1F⟩ := decode_bc6h_of_reserved B
  rcases h : selector6 tables B with - | mode
  · have hv := (selector6_eq_none_iff B).mp h
    simp only [reservedSelectors, List.mem_cons, List.not_mem_nil, or_false] at hv
    rcases hv with hv | hv | hv | hv
    · rw [h13 hv]; exact h5.trans hv
    · rw [h17 hv]; exact h5.trans hv
    · rw [h1B hv]; exact h5.trans hv
    · rw [h1F hv]; exact h5.trans hv
  · obtain ⟨k, rfl⟩ := exists_of_selector6_eq_some h
    rw [decode_bc6h_of_selector6 h, row_bc6h, toNat_and_two_pow_sub_one]
    exact (selector6_eq_some_iff B k).mp h

/-- Decoding tells the first bits of the block, as many as the row has mask bits. -/
theorem rdbits_of_row_decode_bc6h {B : Block} {i : Instr} {v w : Nat} (h : decode (.bc6h B) = i)
    (hrow : row i = (v, 2 ^ w - 1)) : rdbits B 0 w = v := by
  have hbits := decode_bc6h_matches_row B
  rwa [h, hrow, toNat_and_two_pow_sub_one] at hbits

theorem exists_decode_bc6h_iff (B : Block) (k : Fin 14) :
    (∃ f, decode (.bc6h B) = .bc6h k f) ↔
      rdbits B 0 (tables.bc6h (k + 1)).selw = (tables.bc6h (k + 1)).sel :=
  ⟨fun ⟨f, h⟩ => rdbits_of_row_decode_bc6h h (row_bc6h k f),
    fun h => ⟨_, decode_bc6h_of_selector6 ((selector6_eq_some_iff B k).mpr h)⟩⟩

theorem selw_eq_five (k : Fin 14) (hk : 2 ≤ k.val) : (tables.bc6h (k + 1)).selw = 5 := by
  revert k
  decide

/-- Settles O7: a mode's selector is `selw` bits wide, 2 for modes 1 and 2 and 5 for the others, and the five-bit values
left over are the reserved ones; the counts are taken over the 32 values. -/
theorem bc6hSelectorIsTwoOrFiveBits : Obligations.Bc6hSelectorIsTwoOrFiveBits := by
  refine ⟨fun B => ?_, by decide +kernel⟩
  obtain ⟨h13, h17, h1B, h1F⟩ := decode_bc6h_of_reserved B
  refine ⟨exists_decode_bc6h_iff B 0, exists_decode_bc6h_iff B 1, fun k hk => ?_, ?_, ?_, ?_, ?_⟩
  · rw [exists_decode_bc6h_iff, selw_eq_five k hk]
  · exact ⟨fun ⟨_, h⟩ => rdbits_of_row_decode_bc6h h rfl, fun h => ⟨_, h13 h⟩⟩
  · exact ⟨fun ⟨_, h⟩ => rdbits_of_row_decode_bc6h h rfl, fun h => ⟨_, h17 h⟩⟩
  · exact ⟨fun ⟨_, h⟩ => rdbits_of_row_decode_bc6h h rfl, fun h => ⟨_, h1B h⟩⟩
  · exact ⟨fun ⟨_, h⟩ => rdbits_of_row_decode_bc6h h rfl, fun h => ⟨_, h1F h⟩⟩

end Sys2Proof
end

section
/-! PROOFS. The lengths of index arrays (R84), and that the fields of a BC7 mode fill the block (R85). -/

namespace Sys2Proof

/-- Each fixup pixel among those listed takes one bit off the array. -/
theorem totalWidth_map_idxWidth (T : Tables) (P shape : Nat) {ip : Nat} (hip : 0 < ip) (l : List Nat) :
    totalWidth (l.map (T.idxWidth P shape ip)) + l.countP (T.isFix P shape) = l.length * ip := by
  induction l with
  | nil => simp [totalWidth]
  | cons i l ih =>
    simp only [List.map_cons, totalWidth, List.countP_cons, List.length_cons, Tables.idxWidth, Nat.add_mul]
    split <;> omega

/-- Each of the `P + 1` regions has a fixup pixel of its own, in every shape. -/
theorem countP_isFix : ∀ P < 3, ∀ shape < 64, (List.range 16).countP (tables.isFix P shape) = P + 1 := by
  decide +kernel

/-- Length of index array 1 (R84). -/
theorem totalWidth_idxWidth {P shape ip : Nat} (hP : P < 3) (hs : shape < 64) (hip : 0 < ip) :
    totalWidth ((List.range 16).map (tables.idxWidth P shape ip)) = 16 * ip - (P + 1) := by
  have h := totalWidth_map_idxWidth tables P shape hip (List.range 16)
  rw [countP_isFix P hP shape hs, List.length_range] at h
  omega

/-- Length of index array 2 (R84), whose one fixup pixel is pixel 0. -/
theorem totalWidth_idx2Width (d : Desc7) (h : 0 < d.IP2) :
    totalWidth ((List.range 16).map d.idx2Width) = 16 * d.IP2 - 1 := by
  have hmap : (List.range 16).map d.idx2Width = (d.IP2 - 1) :: List.replicate 15 d.IP2 := rfl
  simp only [hmap, List.replicate, totalWidth]
  omega

/-- Length of both index arrays of BC7. -/
theorem totalWidth_idxWidths7 (d : Desc7) {shape : Nat} (hP : d.P < 3) (hs : shape < 64) (hip : 0 < d.IP) :
    totalWidth (tables.idxWidths7 d shape) =
      (16 * d.IP - (d.P + 1)) + (if 0 < d.IP2 then 16 * d.IP2 - 1 else 0) := by
  rw [Tables.idxWidths7, totalWidth_append, totalWidth_idxWidth hP hs hip]
  split
  · rw [totalWidth_idx2Width d ‹_›]
  · rfl

theorem bc7_index_bounds : ∀ m < 8, (tables.bc7 m).P < 3 ∧ 2 ^ (tables.bc7 m).PB ≤ 64 ∧ 0 < (tables.bc7 m).IP := by
  decide

/-- Settles O13: the header lengths and the sum are read off the eight descriptors; the index widths do not depend on
the shape, as each region has one fixup pixel. -/
theorem bc7FieldsTotal128 : Obligations.Bc7FieldsTotal128 := by
  intro m hm
  obtain ⟨hP, hPB, hip⟩ := bc7_index_bounds m hm
  refine ⟨?_, ?_, fun shape hs => totalWidth_idxWidths7 _ hP (hs.trans_le hPB) hip⟩
  · revert m
    decide
  · revert m
    decide

end Sys2Proof
end

section
/-! PROOFS. One access at the bit cursor (R144, R147). -/

namespace Sys2Proof.Machine

/-- A first field that leaves the block is not read: the raise takes its place. -/
theorem State.getAll_cons_of_lt (c : Status) {w : Nat} (ws : List Nat) {s : State} (h : 128 < s.cur + w) :
    State.getAll c (w :: ws) s = ([], s.raise c) := if_pos h

/-- A first field that leaves the block is not written: the raise takes its place. -/
theorem State.putAll_cons_of_lt {w : Nat} (v : Nat) (fs : List (Nat × Nat)) {s : State} (h : 128 < s.cur + w) :
    State.putAll ((w, v) :: fs) s = s.raise .cursorRange := if_pos h

/-- `GET(w)` inside the block. -/
theorem State.getAll_singleton_of_le (c : Status) {w : Nat} {s : State} (h : s.cur + w ≤ 128) :
    State.getAll c [w] s = ([rdbits s.blk s.cur w], { s with cur := s.cur + w }) :=
  State.getAll_of_le c [w] s h

/-- `PUT(w, v)` inside the block. -/
theorem State.putAll_singleton_of_le {w : Nat} (v : Nat) {s : State} (h : s.cur + w ≤ 128) :
    State.putAll [(w, v)] s = { s with blk := wrbits s.blk s.cur w v, cur := s.cur + w } :=
  State.putAll_of_le [(w, v)] s h

/-- Settles O12: an access either ends inside the block or raises before anything moves; one of width 0 is the inside
case with nothing to read, write or pass. -/
theorem getAndPutMoveTheCursor : Obligations.GetAndPutMoveTheCursor := by
  intro s c w v
  refine ⟨fun h => ?inside, fun h => ?beyond, fun h => ?widthZero⟩
  case inside => exact ⟨State.getAll_singleton_of_le c h, State.putAll_singleton_of_le v h⟩
  case beyond =>
    exact ⟨State.getAll_cons_of_lt c [] h, State.raise_cur s c, State.raise_blk s c, State.putAll_cons_of_lt v [] h⟩
  case widthZero =>
    rw [State.getAll_singleton_of_le c (w := 0) h, State.putAll_singleton_of_le v (w := 0) h, rdbits_zero, wrbits_zero]
    exact ⟨rfl, rfl⟩

end Sys2Proof.Machine
end

section
/-! PROOFS. The invariants of the partition and fixup tables (R157). -/

namespace Sys2Proof

/-- Invariants (a) and (c): pixel 0 is region 0's fixup pixel. -/
theorem region_fixup : ∀ P < 3, ∀ s < 64, ∀ r ≤ P, tables.region P s (tables.fixup P s r) = r := by
  decide +kernel

theorem region_zero {P s : Nat} (hP : P < 3) (hs : s < 64) : tables.region P s 0 = 0 :=
  region_fixup P hP s hs 0 P.zero_le

/-- Invariant (b), from (c): a region holds its fixup pixel. -/
theorem exists_region_eq {P s r : Nat} (hP : P < 3) (hs : s < 64) (hr : r ≤ P) :
    ∃ i < 16, tables.region P s i = r :=
  ⟨tables.fixup P s r, fixup_lt P s r hs, region_fixup P hP s hs r hr⟩

/-- Invariant (e), from (c): regions are disjoint. -/
theorem fixup_ne_fixup {P s r t : Nat} (hP : P < 3) (hs : s < 64) (hr : r ≤ P) (ht : t ≤ P) (hne : r ≠ t) :
    tables.fixup P s r ≠ tables.fixup P s t := by
  intro h
  have hregion := congrArg (tables.region P s) h
  rw [region_fixup P hP s hs r hr, region_fixup P hP s hs t ht] at hregion
  exact hne hregion

/-- The fixup pixel of region 0 is pixel 0 (R154), so that of another region is not. -/
theorem fixup_ne_zero {P s r : Nat} (hP : P < 3) (hs : s < 64) (hr : r ≤ P) (hne : r ≠ 0) : tables.fixup P s r ≠ 0 :=
  fixup_ne_fixup hP hs hr P.zero_le hne

/-- Bit `j` of a row lies in the digit of pixel `15 - j / 4`. -/
theorem testBit_shapeDigit (row : Nat) {j : Nat} (hj : j < 64) :
    (shapeDigit row (15 - j / 4)).testBit (j % 4) = row.testBit j := by
  have hbit : 4 * (15 - (15 - j / 4)) + j % 4 = j := by omega
  rw [shapeDigit, show 16 = 2 ^ 4 from rfl, Nat.testBit_mod_two_pow, Nat.testBit_shiftRight, hbit,
    decide_eq_true (Nat.mod_lt j (by decide)), Bool.true_and]

/-- A row is determined by its 16 digits. -/
theorem eq_of_shapeDigit_eq {a b : Nat} (ha : a < 2 ^ 64) (hb : b < 2 ^ 64)
    (h : ∀ i < 16, shapeDigit a i = shapeDigit b i) : a = b := by
  refine Nat.eq_of_testBit_eq fun j => ?_
  rcases Nat.lt_or_ge j 64 with hj | hj
  · rw [← testBit_shapeDigit a hj, ← testBit_shapeDigit b hj, h _ (by omega)]
  · have hpow : 2 ^ 64 ≤ 2 ^ j := Nat.pow_le_pow_right (by decide) hj
    rw [Nat.testBit_eq_false_of_lt (ha.trans_le hpow), Nat.testBit_eq_false_of_lt (hb.trans_le hpow)]

/-- In a list of distinct rows, two shapes differ at some pixel. -/
theorem exists_shapeDigit_ne {rows : List Nat} (hnodup : rows.Nodup) (hrow : ∀ row ∈ rows, row < 2 ^ 64)
    {s u : Nat} (hs : s < rows.length) (hu : u < rows.length) (hne : s ≠ u) :
    ∃ i < 16, shapeDigit (rows.getD s 0) i ≠ shapeDigit (rows.getD u 0) i := by
  rw [List.getD_eq_getElem _ _ hs, List.getD_eq_getElem _ _ hu]
  by_contra! h
  exact hne (hnodup.getElem_inj_iff.mp
    (eq_of_shapeDigit_eq (hrow _ (List.getElem_mem hs)) (hrow _ (List.getElem_mem hu)) h))

/-- Invariant (d) for `PART2`. -/
theorem exists_region_one_ne {s u : Nat} (hs : s < 64) (hu : u < 64) (hne : s ≠ u) :
    ∃ i < 16, tables.region 1 s i ≠ tables.region 1 u i :=
  exists_shapeDigit_ne (rows := tables.part2) (by decide +kernel) (by decide +kernel) hs hu hne

/-- Invariant (d) for `PART3`. -/
theorem exists_region_two_ne {s u : Nat} (hs : s < 64) (hu : u < 64) (hne : s ≠ u) :
    ∃ i < 16, tables.region 2 s i ≠ tables.region 2 u i :=
  exists_shapeDigit_ne (rows := tables.part3) (by decide +kernel) (by decide +kernel) hs hu hne

/-- Settles O15: each fixup pixel lies in its region, which is then non-empty, and fixup pixels of different regions
differ; two shapes differ at a pixel because their rows are different numbers of 16 digits. -/
theorem shapeTableInvariants : Obligations.ShapeTableInvariants := by
  have h1 : 1 < 3 := by decide
  have h2 : 2 < 3 := by decide
  refine ⟨fun s hs => ⟨?pixelZero, ?nonempty, ?fixupInRegion, ?fixupsDistinct, ?range⟩, fun s hs u hu => ?rowsDistinct⟩
  case pixelZero => exact ⟨region_zero h1 hs, region_zero h2 hs⟩
  case nonempty =>
    exact ⟨fun r hr => exists_region_eq h1 hs (Nat.le_of_lt_succ hr),
      fun r hr => exists_region_eq h2 hs (Nat.le_of_lt_succ hr)⟩
  case fixupInRegion =>
    exact ⟨region_fixup 1 h1 s hs 1 le_rfl, region_fixup 2 h2 s hs 1 (by decide), region_fixup 2 h2 s hs 2 le_rfl⟩
  case fixupsDistinct =>
    exact ⟨fixup_ne_zero h1 hs le_rfl (by decide), fixup_ne_zero h2 hs (by decide) (by decide),
      fixup_ne_zero h2 hs le_rfl (by decide), fixup_ne_fixup h2 hs (by decide) le_rfl (by decide)⟩
  case range =>
    exact fun i hi => ⟨Nat.lt_succ_of_le (region_lt 1 s i (by decide) hs hi),
      Nat.lt_succ_of_le (region_lt 2 s i le_rfl hs hi)⟩
  case rowsDistinct =>
    exact ⟨exists_region_one_ne hs (hu.trans hs) hu.ne', exists_region_two_ne hs (hu.trans hs) hu.ne'⟩

end Sys2Proof
end

section
/-! PROOFS. Sign extension as the two's-complement reading of a word (R12, R187), and the endpoint transform (R188 to
R190). -/

namespace Sys2Proof.Machine

/-! ## Sign extension -/

/-- Sign extension reads the low `n` bits as a two's-complement number. -/
theorem sext_eq_toInt (x : Int) {n : Nat} (hn : 1 ≤ n) : sext x n = (BitVec.ofInt n x).toInt := by
  have hpow : (2 : Int) ^ n = 2 * 2 ^ (n - 1) := by
    rw [← pow_succ', Nat.sub_add_cancel hn]
  rw [BitVec.toInt_ofInt, Int.bmod, sext]
  push_cast
  split <;> split <;> omega

theorem sext_natCast_eq_toInt (v : Nat) {n : Nat} (hn : 1 ≤ n) : sext v n = (BitVec.ofNat n v).toInt := by
  rw [sext_eq_toInt _ hn, BitVec.ofInt_natCast]

/-- Sign extension looks at the low `n` bits alone. -/
theorem sext_emod (x : Int) (n : Nat) : sext (x % 2 ^ n) n = sext x n := by
  simp only [sext, Int.emod_emod_of_dvd x dvd_rfl]

/-- Settles O20: sign extension is the two's-complement value of the `n`-bit word `v`, whose sign bit is bit `n - 1`, and
as a 17-bit register it is that word sign-extended. -/
theorem signExtension : Obligations.SignExtension := by
  intro n hn hn16 v hv
  have hbit (b : Nat) (hb : b < n) : (BitVec.ofNat n v).getLsbD b = v.testBit b := by
    rw [BitVec.getLsbD_ofNat, decide_eq_true hb, Bool.true_and]
  have hmsb : (BitVec.ofNat n v).msb = v.testBit (n - 1) := by
    rw [BitVec.msb_eq_getLsbD_last, hbit _ (by omega)]
  have hreg (b : Nat) (hb : b < 17) : (BitVec.ofInt 17 (BitVec.ofNat n v).toInt).getLsbD b =
      if b < n then v.testBit b else v.testBit (n - 1) := by
    rw [← BitVec.signExtend, BitVec.getLsbD_signExtend, hmsb, decide_eq_true hb, Bool.true_and]
    split
    · exact hbit b ‹_›
    · rfl
  rw [sext_natCast_eq_toInt v hn]
  refine ⟨?value, BitVec.le_toInt _, Int.le_sub_one_of_lt BitVec.toInt_lt, rfl, fun b hb => ?lowBits,
    fun b hb hnb => ?signBits⟩
  case value =>
    rw [BitVec.toInt_eq_msb_cond, hmsb, BitVec.toNat_ofNat, Nat.mod_eq_of_lt hv]
    push_cast
    rfl
  case lowBits => rw [hreg b (by omega), if_pos hb]
  case signBits =>
    rw [hreg b hb]
    rcases hnb.lt_or_eq with h | rfl
    · rw [if_neg (by omega)]
    · rw [ite_self]

/-! ## Fit and transform -/

theorem fits_signed_iff (x : Int) (n : Nat) : fits x n true = true ↔ -(2 ^ (n - 1)) ≤ x ∧ x ≤ 2 ^ (n - 1) - 1 := by
  simp [fits]

theorem fits_unsigned_iff (x : Int) (n : Nat) : fits x n false = true ↔ 0 ≤ x ∧ x ≤ 2 ^ n - 1 := by
  simp [fits]

/-- A signed value that fits `n` bits is the sign extension of its low `n` bits. -/
theorem sext_emod_of_fits {x : Int} {n : Nat} (hn : 1 ≤ n) (h : fits x n true = true) : sext (x % 2 ^ n) n = x := by
  obtain ⟨hlo, hhi⟩ := (fits_signed_iff x n).mp h
  rw [sext_emod, sext_eq_toInt x hn, BitVec.toInt_ofInt_eq_self hn hlo (by omega)]

/-- Base plus delta gives back every endpoint that fits `EP` bits (R188). -/
theorem invTransform_sub {x base : Int} {EP : Nat} {sg : Bool} (hEP : 1 ≤ EP) (h : fits x EP sg = true) :
    invTransform base (x - base) EP sg = x := by
  rw [invTransform, sub_add_cancel]
  cases sg with
  | true => exact sext_emod_of_fits hEP h
  | false =>
    obtain ⟨hlo, hhi⟩ := (fits_unsigned_iff x EP).mp h
    exact Int.emod_eq_of_lt hlo (by omega)

theorem fits_of_fits6 {d : Desc6} {sg : Bool} {st : Nat → Nat → Int} (h : fits6 d sg st = true) {k c : Nat}
    (hk : k < d.ne) (hk0 : k ≠ 0) (hc : c < 3) : fits (st k c) (d.dW c) (sg || d.tr) = true := by
  simp only [fits6, List.all_eq_true, List.mem_range] at h
  simpa [hk0] using h k hk c hc

/-- Every endpoint field of every mode has at least one bit. -/
theorem bc6h_width_pos : ∀ mode < 15, 1 ≤ mode → 1 ≤ (tables.bc6h mode).EP ∧ ∀ c < 3, 1 ≤ (tables.bc6h mode).dW c := by
  decide

/-- Settles O21: the low bits of a stored delta that fits sign-extend to the delta, and adding the base back gives the
endpoint, which the wrap to `EP` bits leaves alone because it fits them. -/
theorem inverseTransformUndoesForward : Obligations.InverseTransformUndoesForward := by
  intro mode hmode hmode1 d sg q hq
  refine ⟨fun c => by simp [stored6], fun k hk c => ?_, fun hfit k hk hk1 c hc htr => ?_⟩
  · simp [stored6, Nat.one_le_iff_ne_zero.mp hk]
  · obtain ⟨hEP, hdW⟩ := bc6h_width_pos mode hmode hmode1
    have hk0 : k ≠ 0 := Nat.one_le_iff_ne_zero.mp hk1
    have hstored : fits (stored6 d q k c) (d.dW c) true = true := by
      simpa [htr] using fits_of_fits6 hfit hk hk0 hc
    have hdelta : stored6 d q k c = q k c - q 0 c := by simp [stored6, htr, hk0]
    rw [sext_emod_of_fits (hdW c hc) hstored, hdelta, invTransform_sub hEP (hq k hk c hc)]

end Sys2Proof.Machine
end

section
/-! PROOFS. The BC7 quantizer pair in arithmetic (R171 to R173), and how far a round trip strays (R176). -/

namespace Sys2Proof.Machine

theorem q7_eq_div (v p : Nat) : q7 v p = min 255 (v + if p ≤ 7 then 2 ^ (7 - p) else 0) / 2 ^ (8 - p) := by
  simp only [q7, Nat.shiftRight_eq_div_pow, Nat.shiftLeft_eq, one_mul]

theorem q7_lt (v : Nat) {p : Nat} (hp : p ≤ 8) : q7 v p < 2 ^ p := by
  have hpow : 2 ^ p * 2 ^ (8 - p) = 2 ^ 8 := by rw [← pow_add, Nat.add_sub_cancel' hp]
  rw [q7_eq_div, Nat.div_lt_iff_lt_mul (by positivity), hpow]
  omega

/-- The replicated bits of R173 fall into the vacated low bits, so the OR adds them. -/
theorem uq7_eq_add {q p : Nat} (hq : q < 2 ^ p) :
    uq7 q p = q * 2 ^ (8 - p) + q * 2 ^ (8 - p) / 2 ^ p := by
  have hlow : q * 2 ^ (8 - p) / 2 ^ p < 2 ^ (8 - p) := by
    rw [Nat.div_lt_iff_lt_mul (by positivity), mul_comm]
    gcongr
  rw [← Nat.shiftLeft_eq] at hlow ⊢
  rw [uq7, Nat.shiftRight_eq_div_pow, Nat.shiftLeft_add_eq_or_of_lt hlow]

/-- Each precision of R176 with the largest deviation there. -/
def deviations7 : List (Nat × Nat) := [(5, 11), (6, 5), (7, 2), (8, 0)]

/-- The bias rounds up by as much as half a step, and the replicated bits add up to one step more; past the middle of
the range the two add up. -/
theorem roundTrip7_deviation_le :
    ∀ x ∈ deviations7, ∀ v < 256, ((uq7 (q7 v x.1) x.1 : Int) - v).natAbs ≤ x.2 := by
  intro x hx v hv
  have hp : x.1 ≤ 8 := by fin_cases hx <;> decide
  rw [uq7_eq_add (q7_lt v hp), q7_eq_div]
  fin_cases hx <;> norm_num <;> omega

theorem roundTrip7_deviation_attained :
    ∀ x ∈ deviations7, ∃ v < 256, ((uq7 (q7 v x.1) x.1 : Int) - v).natAbs = x.2 := by
  intro x hx
  fin_cases hx
  exacts [⟨220, by decide⟩, ⟨190, by decide⟩, ⟨127, by decide⟩, ⟨0, by decide⟩]

/-- Settles O18: with the OR of the unquantizer turned into a sum, each of the four bounds is one about a division by a
literal; the inputs 220, 190, 127 and 0 attain them, and the comparisons with the step are of numbers. -/
theorem bc7RoundTripDeviation : Obligations.Bc7RoundTripDeviation := by
  intro x hx
  refine ⟨roundTrip7_deviation_le x hx, roundTrip7_deviation_attained x hx, ?_⟩
  revert x
  decide

end Sys2Proof.Machine
end

section
/-! PROOFS. The BC6H chain quantize, unquantize, finish (R181 to R184), and how far a round trip strays (R186).

A signed value goes through the chain by its magnitude, and precision `p` does to the magnitude what unsigned precision
`p - 1` does. So one function of the magnitude, `midpoint6`, stands for both signednesses. -/

namespace Sys2Proof.Machine

/-- The chain of R186. -/
def roundTrip6 (sg : Bool) (p : Nat) (v : Int) : Int := fin6 (uq6 (q6 tables.f16max v p sg) p sg) sg

/-! ## The signed chain is odd -/

theorem q6_neg (fmax : Nat) (v : Int) (p : Nat) : q6 fmax (-v) p true = -q6 fmax v p true := by
  rcases lt_trichotomy v 0 with h | rfl | h
  · simp [q6, h, h.not_gt]
  · simp [q6]
  · simp [q6, h, h.not_gt]

theorem uq6_neg (q : Int) (p : Nat) : uq6 (-q) p true = -uq6 q p true := by
  rcases lt_trichotomy q 0 with h | rfl | h
  · simp [uq6, h, h.not_gt, apply_ite Neg.neg]
  · simp [uq6]
  · simp [uq6, h, h.not_gt, apply_ite Neg.neg]

theorem fin6_neg (c : Int) : fin6 (-c) true = -fin6 c true := by
  rcases lt_trichotomy c 0 with h | rfl | h
  · simp [fin6, h, h.not_gt]
  · simp [fin6]
  · simp [fin6, h, h.not_gt]

theorem roundTrip6_neg (p : Nat) (v : Int) : roundTrip6 true p (-v) = -roundTrip6 true p v := by
  rw [roundTrip6, q6_neg, uq6_neg, fin6_neg, roundTrip6]

/-! ## The chain on magnitudes -/

/-- The quantization cell of the magnitude `v` at `n` bits: one of `2 ^ n` that divide 0..31743 evenly. -/
def cell6 (n : Nat) (v : Int) : Int := v * 2 ^ n / 31744

/-- What the chain gives at `n` bits of magnitude: the middle of the cell of `v`, but 0 in the lowest cell and `F16MAX`
in the highest. -/
def midpoint6 (n : Nat) (v : Int) : Int :=
  if cell6 n v = 0 then 0
  else if cell6 n v = 2 ^ n - 1 then 31743
  else (cell6 n v * 31744 + 15872) / 2 ^ n

/-- Unquantizing a middle value and finishing it: `k` is 64 (R184 unsigned) or 32 (signed). The first division is exact
where `N` divides the half unit `512 * k` that is added, and the two divisions are then one. -/
theorem finish_middle (q : Int) {k N : Int} (hk : 0 < k) (hN : 0 < N) (hdvd : N ∣ 512 * k) :
    (q * (1024 * k) + 512 * k) / N * 31 / k = (q * 31744 + 15872) / N := by
  obtain ⟨c, hc⟩ := hdvd
  have hexact : (q * (1024 * k) + 512 * k) / N = (2 * q + 1) * c := by
    rw [show q * (1024 * k) + 512 * k = N * ((2 * q + 1) * c) by linear_combination (2 * q + 1) * hc,
      Int.mul_ediv_cancel_left _ hN.ne']
  rw [hexact, ← Int.mul_ediv_mul_of_pos _ k hN, show N * ((2 * q + 1) * c * 31) = k * (q * 31744 + 15872) by
    linear_combination (-31) * (2 * q + 1) * hc, mul_comm N k, Int.mul_ediv_mul_of_pos _ _ hk]

theorem roundTrip6_unsigned {p : Nat} (hp : p ≤ 14) (v : Int) : roundTrip6 false p v = midpoint6 p v := by
  have hmid := finish_middle (cell6 p v) (k := 64) (by decide) (by positivity)
    ((pow_dvd_pow 2 hp).trans (by decide))
  have hp15 : ¬ 15 ≤ p := by omega
  have hq : q6 tables.f16max v p false = cell6 p v := by rw [q6, if_pos rfl, if_neg hp15]; rfl
  rw [roundTrip6, hq, uq6, if_pos rfl, if_neg hp15, fin6, if_pos rfl, midpoint6]
  split_ifs
  · rfl
  · rfl
  · exact hmid

/-- The cell of a legal magnitude is one of the `2 ^ n`. -/
theorem cell6_mem {n : Nat} {v : Int} (hv : 0 ≤ v) (hv' : v ≤ 31743) :
    0 ≤ cell6 n v ∧ cell6 n v ≤ 2 ^ n - 1 := by
  have hN : (0 : Int) < 2 ^ n := by positivity
  unfold cell6
  refine ⟨by positivity, Int.le_sub_one_of_lt (Int.ediv_lt_of_lt_mul (by decide) ?_)⟩
  rw [mul_comm]
  gcongr
  omega

theorem roundTrip6_signed {p : Nat} (hp : p ≤ 15) {v : Int} (hv : 0 ≤ v) (hv' : v ≤ 31743) :
    roundTrip6 true p v = midpoint6 (p - 1) v := by
  have hmid := finish_middle (cell6 (p - 1) v) (N := 2 ^ (p - 1)) (k := 32) (by decide) (by positivity)
    ((pow_dvd_pow 2 (show p - 1 ≤ 14 by omega)).trans (by decide))
  obtain ⟨hlo, hhi⟩ := cell6_mem (n := p - 1) hv hv'
  have hp16 : ¬ 16 ≤ p := by omega
  have hq : q6 tables.f16max v p true = cell6 (p - 1) v := by
    simp only [q6, Bool.true_eq_false, if_false, if_neg hp16, if_neg hv.not_gt, Int.natAbs_of_nonneg hv]
    rfl
  simp only [roundTrip6, hq, uq6, Bool.true_eq_false, if_false, if_neg hp16, if_neg hlo.not_gt,
    Int.natAbs_of_nonneg hlo, fin6, midpoint6]
  generalize cell6 (p - 1) v = q at *
  by_cases h0 : q = 0
  · simp [h0]
  by_cases hmax : q = 2 ^ (p - 1) - 1
  · rw [if_neg h0, if_pos hmax.ge, if_neg (by decide), if_neg h0, if_pos hmax]
    rfl
  · have hlt : ¬ 2 ^ (p - 1) - 1 ≤ q := by omega
    have hu : 0 ≤ (q * 2 ^ 15 + 0x4000) / 2 ^ (p - 1) := by positivity
    rw [if_neg h0, if_neg hlt, if_neg hu.not_gt, if_neg h0, if_neg hmax]
    exact hmid

/-- A round trip strays by less than the step `31744 / 2 ^ n`, the length of a cell: in the outer cells input and result
lie in one cell; elsewhere the result is within half a step of the input but for being rounded down, which matters only
where the step is below 2. -/
theorem abs_midpoint6_sub_lt {n : Nat} (hn : n ≤ 14) (v : Int) : |midpoint6 n v - v| * 2 ^ n < 31744 := by
  have hN : (0 : Int) < 2 ^ n := by positivity
  have hN14 : (2 : Int) ^ n ≤ 2 ^ 14 := pow_le_pow_right₀ (by decide) hn
  have hlo : cell6 n v * 31744 ≤ v * 2 ^ n := Int.ediv_mul_le _ (by decide)
  have hhi : v * 2 ^ n < (cell6 n v + 1) * 31744 := Int.lt_ediv_add_one_mul_self _ (by decide)
  rw [midpoint6]
  generalize cell6 n v = q at *
  generalize (2 : Int) ^ n = N at *
  rw [← abs_of_pos hN, ← abs_mul, abs_of_pos hN, abs_lt]
  split_ifs with hlowest hhighest
  · subst hlowest
    constructor <;> linarith
  · subst hhighest
    constructor <;> linarith
  · have hflo := Int.ediv_mul_le (q * 31744 + 15872) hN.ne'
    have hfhi := Int.lt_ediv_add_one_mul_self (q * 31744 + 15872) hN
    generalize (q * 31744 + 15872) / N = f at *
    constructor
    · rcases le_or_gt (v - f) 1 with hd | hd
      · nlinarith
      · nlinarith
    · nlinarith

theorem midpoint6_deviation_le {n : Nat} (hn : n ≤ 14) (v : Int) :
    (midpoint6 n v - v).natAbs ≤ 31743 / 2 ^ n := by
  have h := abs_midpoint6_sub_lt hn v
  rw [Nat.le_div_iff_mul_le (by positivity)]
  zify
  omega

/-- The largest input of the lowest cell comes back as 0, so it strays by the whole of itself. -/
theorem midpoint6_deviation_lowest_cell (n : Nat) :
    (midpoint6 n (31743 / 2 ^ n : Nat) - (31743 / 2 ^ n : Nat)).natAbs = 31743 / 2 ^ n := by
  have h : 31743 / 2 ^ n * 2 ^ n < 31744 := Nat.lt_succ_of_le (Nat.div_mul_le_self _ _)
  have hcell : cell6 n (31743 / 2 ^ n : Nat) = 0 := Int.ediv_eq_zero_of_lt (by positivity) (mod_cast h)
  rw [midpoint6, if_pos hcell, zero_sub, Int.natAbs_neg, Int.natAbs_natCast]

/-! ## The deviations -/

/-- The legal signed inputs, by their magnitude: what the chain's deviation is at `v` it is at `-v`. -/
theorem roundTrip6_signed_deviation_le_of_nonneg {p b : Nat}
    (h : ∀ v : Int, 0 ≤ v → v ≤ 31743 → (roundTrip6 true p v - v).natAbs ≤ b) {v : Int} (hv : -31743 ≤ v)
    (hv' : v ≤ 31743) : (roundTrip6 true p v - v).natAbs ≤ b := by
  rcases le_total 0 v with h0 | h0
  · exact h v h0 hv'
  · have hneg := h (-v) (by omega) (by omega)
    rw [roundTrip6_neg] at hneg
    omega

/-- Passthrough leaves the finish alone: 31/64 of the input. -/
theorem roundTrip6_unsigned_passthrough {p : Nat} (hp : 15 ≤ p) (v : Int) : roundTrip6 false p v = v * 31 / 64 := by
  simp [roundTrip6, q6, uq6, fin6, hp]

/-- Passthrough leaves the finish alone: 31/32 of the magnitude. -/
theorem roundTrip6_signed_passthrough {p : Nat} (hp : 16 ≤ p) {v : Int} (hv : 0 ≤ v) :
    roundTrip6 true p v = v * 31 / 32 := by
  simp [roundTrip6, q6, uq6, fin6, hp, hv.not_gt, abs_of_nonneg hv]

/-- The unsigned precisions of R186 below passthrough, with the largest deviation there. -/
def deviationsUnsigned6 : List (Nat × Nat) :=
  [(6, 495), (7, 247), (8, 123), (9, 61), (10, 30), (11, 15), (12, 7), (13, 3), (14, 1)]

/-- The same of the signed precisions. -/
def deviationsSigned6 : List (Nat × Nat) :=
  [(6, 991), (7, 495), (8, 247), (9, 123), (10, 61), (11, 30), (12, 15), (13, 7), (14, 3), (15, 1)]

theorem deviationsUnsigned6_eq : ∀ x ∈ deviationsUnsigned6, x.1 ≤ 14 ∧ x.2 = 31743 / 2 ^ x.1 := by
  decide

theorem deviationsSigned6_eq : ∀ x ∈ deviationsSigned6, x.1 ≤ 15 ∧ x.2 = 31743 / 2 ^ (x.1 - 1) := by
  decide

/-- Below passthrough, unsigned: the bound, an input that attains it, and that it is less than a step. -/
theorem roundTrip6_unsigned_deviation {p : Nat} (hp : p ≤ 14) :
    (∀ v : Nat, v ≤ 31743 → (roundTrip6 false p v - v).natAbs ≤ 31743 / 2 ^ p) ∧
    (∃ v : Nat, v ≤ 31743 ∧ (roundTrip6 false p v - v).natAbs = 31743 / 2 ^ p) ∧ 31743 / 2 ^ p * 2 ^ p < 31744 := by
  refine ⟨fun v _ => ?_, ⟨31743 / 2 ^ p, Nat.div_le_self _ _, ?_⟩, Nat.lt_succ_of_le (Nat.div_mul_le_self _ _)⟩
  · rw [roundTrip6_unsigned hp]
    exact midpoint6_deviation_le hp v
  · rw [roundTrip6_unsigned hp]
    exact midpoint6_deviation_lowest_cell p

/-- The same, signed. -/
theorem roundTrip6_signed_deviation {p : Nat} (hp : p ≤ 15) :
    (∀ v : Int, -31743 ≤ v → v ≤ 31743 → (roundTrip6 true p v - v).natAbs ≤ 31743 / 2 ^ (p - 1)) ∧
    (∃ v : Int, -31743 ≤ v ∧ v ≤ 31743 ∧ (roundTrip6 true p v - v).natAbs = 31743 / 2 ^ (p - 1)) ∧
    31743 / 2 ^ (p - 1) * 2 ^ (p - 1) < 31744 := by
  have hn : p - 1 ≤ 14 := by omega
  have hle : ((31743 / 2 ^ (p - 1) : Nat) : Int) ≤ 31743 := mod_cast Nat.div_le_self _ _
  have hnonneg : 0 ≤ ((31743 / 2 ^ (p - 1) : Nat) : Int) := Int.natCast_nonneg _
  refine ⟨fun v hv hv' => roundTrip6_signed_deviation_le_of_nonneg (fun w hw hw' => ?_) hv hv',
    ⟨(31743 / 2 ^ (p - 1) : Nat), by linarith, hle, ?_⟩, Nat.lt_succ_of_le (Nat.div_mul_le_self _ _)⟩
  · rw [roundTrip6_signed hp hw hw']
    exact midpoint6_deviation_le hn w
  · rw [roundTrip6_signed hp hnonneg hle]
    exact midpoint6_deviation_lowest_cell (p - 1)

theorem roundTrip6_unsigned_passthrough_deviation {p : Nat} (hp : 15 ≤ p) :
    (∀ v : Nat, v ≤ 31743 → (roundTrip6 false p v - v).natAbs ≤ 16368) ∧
    (roundTrip6 false p 31743 - 31743).natAbs = 16368 := by
  simp only [roundTrip6_unsigned_passthrough hp]
  exact ⟨fun v hv => by omega, by decide⟩

theorem roundTrip6_signed_passthrough_deviation_le {v : Int} (hv : -31743 ≤ v) (hv' : v ≤ 31743) :
    (roundTrip6 true 16 v - v).natAbs ≤ 992 := by
  refine roundTrip6_signed_deviation_le_of_nonneg (fun w hw hw' => ?_) hv hv'
  rw [roundTrip6_signed_passthrough le_rfl hw]
  omega

/-- Settles O19: below passthrough the chain gives the middle of the input's cell, or an end of the range in the two
outer cells, which is off by less than a step; the largest input of the lowest cell is off by all but that. -/
theorem bc6hRoundTripDeviation : Obligations.Bc6hRoundTripDeviation := by
  refine ⟨fun x hx => ?unsigned, fun p hp => ?unsignedPassthrough, fun x hx => ?signed, ?signedPassthrough, by decide⟩
  case unsigned =>
    obtain ⟨hp, hx2⟩ := deviationsUnsigned6_eq x hx
    rw [hx2]
    exact roundTrip6_unsigned_deviation hp
  case unsignedPassthrough =>
    exact roundTrip6_unsigned_passthrough_deviation (by omega)
  case signed =>
    obtain ⟨hp, hx2⟩ := deviationsSigned6_eq x hx
    rw [hx2]
    exact roundTrip6_signed_deviation hp
  case signedPassthrough => exact fun v => roundTrip6_signed_passthrough_deviation_le

end Sys2Proof.Machine
end

section
/-! PROOFS. Tabulated arrays depend on the entries inside them alone. -/

namespace Sys2Proof

theorem tab_congr {α : Type} {n : Nat} {f g : Nat → α} (h : ∀ i < n, f i = g i) : tab n f = tab n g := by
  ext i hi
  simpa [tab] using h i hi

theorem grid_congr {α : Type} {a b : Nat} {f g : Nat → Nat → α} (h : ∀ i < a, ∀ j < b, f i j = g i j) :
    grid a b f = grid a b g :=
  tab_congr fun i hi => tab_congr fun j hj => h i hi j hj

end Sys2Proof
end

section
/-! PROOFS. The fields the header scan assembles (R99, R253): each fits the width its mode gives it. -/

namespace Sys2Proof

/-- A field assembled from bits below `w` has no bit from `w` on. -/
theorem assemble_lt {L : List (HdrField × Nat)} {f : HdrField} {w : Nat} (h : ∀ p ∈ L, p.1 = f → p.2 < w)
    (bits : List Nat) : assemble L bits f < 2 ^ w := by
  unfold assemble
  refine List.foldlRecOn (motive := (· < 2 ^ w)) (L.zip bits) _ (Nat.two_pow_pos w) fun v hv p hp => ?_
  split
  next hf =>
    have hb : p.1.2 < w := h p.1 (List.of_mem_zip hp).1 hf.1
    rw [Nat.one_shiftLeft]
    exact Nat.or_lt_two_pow hv (Nat.pow_lt_pow_right (by decide) hb)
  next => exact hv

/-- Width of a header field (R97 to R100); 0 for a field the mode does not have. -/
def Desc6.fieldWidth (d : Desc6) : HdrField → Nat
  | .m => d.selw
  | .d => d.shapeBits
  | .ep k c => if c < 3 then d.epWidth k c else 0

theorem layout_bit_lt : ∀ k : Fin 14, ∀ p ∈ tables.layout (k + 1), p.2 < (tables.bc6h (k + 1)).fieldWidth p.1 := by
  decide +kernel

theorem assemble_layout_lt (k : Fin 14) (n : Nat) (bits : List Nat) (f : HdrField) :
    assemble ((tables.layout (k + 1)).drop n) bits f < 2 ^ (tables.bc6h (k + 1)).fieldWidth f :=
  assemble_lt (fun p hp hf => hf ▸ layout_bit_lt k p (List.mem_of_mem_drop hp)) bits

theorem parse6_shape_lt (k : Fin 14) (B : Block) :
    (parse6 tables (k + 1) B).shape < 2 ^ (tables.bc6h (k + 1)).shapeBits :=
  assemble_layout_lt k _ _ .d

theorem assemble_layout_ep_eq_zero (k : Fin 14) (n : Nat) (bits : List Nat) {e c : Nat}
    (h : ¬ (e < (tables.bc6h (k + 1)).ne ∧ c < 3)) :
    assemble ((tables.layout (k + 1)).drop n) bits (.ep e c) = 0 := by
  have hne : 0 < (tables.bc6h (k + 1)).ne := by simp [Desc6.ne]
  have hw : (tables.bc6h (k + 1)).fieldWidth (.ep e c) = 0 := by
    simp only [Desc6.fieldWidth, Desc6.epWidth]
    split_ifs <;> omega
  have hlt := assemble_layout_lt k n bits (.ep e c)
  rw [hw] at hlt
  omega

/-- The bits of the header behind the selector, as `parse6` and the header scan read them. -/
def headerBits (k : Fin 14) (B : Block) : List Nat :=
  readAll B (List.replicate ((tables.layout (k + 1)).drop (tables.bc6h (k + 1)).selw).length 1)
    (tables.bc6h (k + 1)).selw

/-- What the descriptors and layouts of BC6H have in common. -/
theorem bc6h_bounds : ∀ k : Fin 14,
    let d := tables.bc6h (k + 1)
    d.P < 2 ∧ 0 < d.IP ∧ 2 ^ d.shapeBits ≤ 64 ∧ (tables.layout (k + 1)).length = d.hdr ∧
      d.selw ≤ d.hdr ∧ d.hdr + (16 * d.IP - (d.P + 1)) = 128 := by
  decide +kernel

/-- An endpoint field, also one that the array has no entry for. -/
theorem cell_parse6_ep (k : Fin 14) (B : Block) (e c : Nat) :
    cell (parse6 tables (k + 1) B).ep e c 0 =
      assemble ((tables.layout (k + 1)).drop (tables.bc6h (k + 1)).selw) (headerBits k B) (.ep e c) := by
  obtain ⟨hP, -⟩ := bc6h_bounds k
  rw [parse6, cell_grid_eq]
  split
  · rfl
  · exact (assemble_layout_ep_eq_zero k _ _ (by rw [Desc6.ne]; omega)).symm

/-- An endpoint field fits its width. -/
theorem parse6_ep_lt (k : Fin 14) (B : Block) (e c : Nat) :
    cell (parse6 tables (k + 1) B).ep e c 0 < 2 ^ (tables.bc6h (k + 1)).fieldWidth (.ep e c) := by
  rw [cell_parse6_ep]
  exact assemble_layout_lt k _ _ (.ep e c)

theorem parse6_ep_eq_zero (k : Fin 14) (B : Block) {e c : Nat} (h : ¬ (e < (tables.bc6h (k + 1)).ne ∧ c < 3)) :
    cell (parse6 tables (k + 1) B).ep e c 0 = 0 := by
  rw [cell_parse6_ep]
  exact assemble_layout_ep_eq_zero k _ _ h

/-! ## Lengths -/

theorem totalWidth_replicate (n w : Nat) : totalWidth (List.replicate n w) = n * w := by
  induction n with
  | zero => simp [totalWidth]
  | succ n ih => rw [List.replicate_succ, totalWidth, ih]; ring

theorem parse6_shape_lt_64 (k : Fin 14) (B : Block) : (parse6 tables (k + 1) B).shape < 64 := by
  obtain ⟨-, -, hshape, -⟩ := bc6h_bounds k
  exact (parse6_shape_lt k B).trans_le hshape

/-- Header and indices of a decoded block fill it (R97). -/
theorem hdr_add_totalWidth_idxWidths6 (k : Fin 14) {shape : Nat} (hs : shape < 64) :
    (tables.bc6h (k + 1)).hdr + totalWidth (tables.idxWidths6 (tables.bc6h (k + 1)) shape) = 128 := by
  obtain ⟨hP, hip, -, -, -, hsum⟩ := bc6h_bounds k
  rw [Tables.idxWidths6, totalWidth_idxWidth (by omega) hs hip, hsum]

end Sys2Proof
end

section
/-! PROOFS. What the BC6H decoder does with a block of mode `k + 1`, phase by phase (R251 to R259): it gives the pixels
of `refTile6` and raises nothing. -/

namespace Sys2Proof.Machine

/-- A phase whose result is known and is no fault is followed by the rest. -/
theorem runPhases_cons_eq {f : State → State} {fs : List (State → State)} {s t : State} (h : f s = t)
    (ht : t.ph ≠ .fault) : runPhases (f :: fs) s = runPhases fs t := by
  rw [runPhases_cons_of_ne f fs s (h ▸ ht), h]

theorem d0Bc6h_eq (s : State) : d0Bc6h s = { s with ph := .d0 } := rfl

theorem checkLength_of_eq {s : State} (h : s.cur = 128) : checkLength s = s := if_pos h

theorem d1Bc6h_of_selector6 {s : State} {k : Fin 14} (h : selector6 tables s.blk = some (k.val + 1)) :
    d1Bc6h tables s = { s with ph := .d1, mode := k + 1, cur := (tables.bc6h (k + 1)).selw } := by
  obtain ⟨-, -, -, hlen, -, -⟩ := bc6h_bounds k
  simp [d1Bc6h, h, hlen]

/-- The endpoint registers after the header scan: the fields as stored. -/
def fieldFile6 (f : Bc6hFields) : EpFile := grid 6 4 fun e c => (cell f.ep e c 0 : Nat)

/-- The header scan assembles the fields of the block and stops behind the header. -/
theorem scanHeader6_eq {s : State} {k : Fin 14} (hmode : s.mode = k + 1) (hcur : s.cur = (tables.bc6h (k + 1)).selw) :
    scanHeader6 tables s =
      { s with ph := .d3, cur := (tables.bc6h (k + 1)).hdr
               shape := (parse6 tables (k + 1) s.blk).shape
               ep := fieldFile6 (parse6 tables (k + 1) s.blk) } := by
  obtain ⟨-, -, -, hlen, hselw, hsum⟩ := bc6h_bounds k
  set ws := List.replicate ((tables.layout (k + 1)).drop (tables.bc6h (k + 1)).selw).length 1 with hws
  have hwidth : (tables.bc6h (k + 1)).selw + totalWidth ws = (tables.bc6h (k + 1)).hdr := by
    rw [hws, totalWidth_replicate, List.length_drop, hlen]
    omega
  have hget : State.getAll .cursorRange ws { s with ph := .d3 } =
      (headerBits k s.blk, { s with ph := .d3, cur := (tables.bc6h (k + 1)).hdr }) := by
    rw [State.getAll_of_le _ _ _ (by simp only [hcur]; omega)]
    simp only [hcur, hwidth]
    rfl
  simp only [hmode] at hget
  simp only [scanHeader6, hmode, ← hws, hget, fieldFile6, cell_parse6_ep]
  rfl

/-- The index array takes the rest of the block. -/
theorem readIndices6_eq {s : State} {k : Fin 14} (hmode : s.mode = k + 1) (hcur : s.cur = (tables.bc6h (k + 1)).hdr)
    (hshape : s.shape = (parse6 tables (k + 1) s.blk).shape) :
    readIndices6 tables s = { s with ph := .d5, cur := 128, ix1 := (parse6 tables (k + 1) s.blk).ix } := by
  have hlen := hdr_add_totalWidth_idxWidths6 k (parse6_shape_lt_64 k s.blk)
  set ws := tables.idxWidths6 (tables.bc6h (k + 1)) (parse6 tables (k + 1) s.blk).shape with hws
  have hget : State.getAll .indexOverrun ws { s with ph := .d5 } =
      (readAll s.blk ws (tables.bc6h (k + 1)).hdr, { s with ph := .d5, cur := 128 }) := by
    rw [State.getAll_of_le _ _ _ (by simp only [hcur]; omega)]
    simp only [hcur, hlen]
  have hix (d : Nat → Nat) : (tab 16 fun i => (readAll s.blk ws (tables.bc6h (k + 1)).hdr).getD i (d i)) =
      (parse6 tables (k + 1) s.blk).ix := by
    refine vector_ext_rd _ _ 0 fun i hi => ?_
    have hi' : i < (readAll s.blk ws (tables.bc6h (k + 1)).hdr).length := by
      simpa [readAll_length, hws, Tables.idxWidths6] using hi
    rw [parse6, rd_tab _ _ _ hi, rd_tab _ _ _ hi, List.getD_eq_getElem _ _ hi']
    exact (List.getD_eq_getElem _ _ hi').symm
  simp only [hmode, hshape] at hget
  simp only [readIndices6, hmode, hshape, ← hws, hget, hix]

/-- Sign extension and inverse transform turn the fields into the endpoints. -/
theorem refEndpoint6_eq (mode : Nat) (sg : Bool) (f : Bc6hFields) (e c : Nat) :
    refEndpoint6 mode sg f e c =
      let d := tables.bc6h mode
      let x := fun e => extendField d sg e c (cell f.ep e c (0 : Nat) : Nat)
      if d.tr = true ∧ e ≠ 0 then invTransform (x 0) (x e) d.EP sg else x e := by
  simp only [refEndpoint6, extendField, invTransform]
  by_cases he : e = 0
  · simp [he]
  · cases (tables.bc6h mode).tr <;> simp [he]

/-- The endpoint registers a BC6H block leaves behind. -/
def endpointFile6 (mode : Nat) (sg : Bool) (f : Bc6hFields) : EpFile :=
  grid 6 4 fun e c => if e < (tables.bc6h mode).ne ∧ c < 3 then refEndpoint6 mode sg f e c else 0

theorem bc6h_ne_le (k : Fin 14) : (tables.bc6h (k + 1)).ne ≤ 4 := by
  obtain ⟨hP, -⟩ := bc6h_bounds k
  rw [Desc6.ne]
  omega

theorem inverse6_signExtend6_eq {s : State} {k : Fin 14} {B : Block} (hmode : s.mode = k + 1)
    (hep : s.ep = fieldFile6 (parse6 tables (k + 1) B)) :
    inverse6 tables (signExtend6 tables s) =
      { s with ph := .d4, ep := endpointFile6 (k + 1) (sgOf s.fmt) (parse6 tables (k + 1) B) } := by
  have hne := bc6h_ne_le k
  have hne0 : 0 < (tables.bc6h (k + 1)).ne := by simp [Desc6.ne]
  have hepAt (e c : Nat) (he : e < 6) (hc : c < 4) :
      epAt s.ep e c = (cell (parse6 tables (k + 1) B).ep e c 0 : Nat) := by
    rw [epAt, hep, fieldFile6, cell_grid _ _ _ _ he hc]
  simp only [inverse6, signExtend6, hmode, endpointFile6]
  refine congrArg (fun v => ({ s with ph := .d4, mode := k + 1, ep := v } : State)) (grid_congr fun e he c hc => ?_)
  rw [refEndpoint6_eq, epAt, epAt, cell_grid _ _ _ _ he hc, cell_grid _ _ _ _ (by decide) hc, hepAt e c he hc,
    hepAt 0 c (by decide) hc]
  by_cases h : e < (tables.bc6h (k + 1)).ne ∧ c < 3
  · simp [h, hne0]
  · rw [parse6_ep_eq_zero k B h]
    simp [h]

theorem epAt_endpointFile6 {k : Fin 14} {sg : Bool} {f : Bc6hFields} {e c : Nat} (he : e < (tables.bc6h (k + 1)).ne)
    (hc : c < 3) : epAt (endpointFile6 (k + 1) sg f) e c = refEndpoint6 (k + 1) sg f e c := by
  have hne := bc6h_ne_le k
  rw [epAt, endpointFile6, cell_grid _ _ _ _ (by omega) (by omega), if_pos ⟨he, hc⟩]

theorem pack6_congr {v w : Nat → Int} (h : ∀ c < 3, v c = w c) : pack6 v = pack6 w := by
  rw [pack6, pack6, h 0 (by decide), h 1 (by decide), h 2 (by decide)]

/-- The pixels of the reference, from the registers the earlier phases leave. -/
theorem d6Bc6h_eq {s : State} {k : Fin 14} {f : Bc6hFields} (hmode : s.mode = k + 1) (hshape : s.shape = f.shape)
    (hlt : f.shape < 64) (hix : s.ix1 = f.ix) (hep : s.ep = endpointFile6 (k + 1) (sgOf s.fmt) f) :
    d6Bc6h tables s = { s with ph := .d6, pix := refTile6 (k + 1) (sgOf s.fmt) f } := by
  obtain ⟨hP, -⟩ := bc6h_bounds k
  unfold d6Bc6h refTile6
  refine congrArg (fun p => ({ s with ph := .d6, pix := p } : State))
    (tab_congr fun i hi => pack6_congr fun c hc => ?_)
  have hr := region_lt (tables.bc6h (k + 1)).P f.shape i (by omega) hlt hi
  rw [hmode, hshape, hix, hep, pal6, epAt_endpointFile6 (by rw [Desc6.ne]; omega) hc,
    epAt_endpointFile6 (by rw [Desc6.ne]; omega) hc]

/-- A block whose selector is that of mode `k + 1` decodes to the pixels of its fields, with every register R22 says
the decoder writes. -/
theorem decodeBc6h_of_selector6 {s : State} {k : Fin 14} (h : selector6 tables s.blk = some (k.val + 1)) :
    decodeBc6h tables s =
      let f := parse6 tables (k + 1) s.blk
      let pix := refTile6 (k + 1) (sgOf s.fmt) f
      { s with status := .ok, ph := .d7, rsp := some (Response.decoded pix), pix := pix, mode := k + 1, cur := 128
               shape := f.shape, ep := endpointFile6 (k + 1) (sgOf s.fmt) f, ix1 := f.ix } := by
  rw [decodeBc6h]
  refine Eq.trans (runPhases_cons_eq (d0Bc6h_eq s) (by simp)) ?_
  refine Eq.trans (runPhases_cons_eq (d1Bc6h_of_selector6 (k := k) h) (by simp)) ?_
  refine Eq.trans (runPhases_cons_eq (scanHeader6_eq (k := k) rfl rfl) (by simp)) ?_
  refine Eq.trans (runPhases_cons_of_ne _ _ _ (by simp [signExtend6])) ?_
  refine Eq.trans (runPhases_cons_eq (inverse6_signExtend6_eq (k := k) rfl rfl) (by simp)) ?_
  refine Eq.trans (runPhases_cons_eq (readIndices6_eq (k := k) rfl rfl rfl) (by simp)) ?_
  refine Eq.trans (runPhases_cons_eq (checkLength_of_eq rfl) (by simp)) ?_
  refine Eq.trans (runPhases_cons_eq (d6Bc6h_eq (k := k) rfl rfl (parse6_shape_lt_64 k s.blk) rfl rfl) (by simp)) ?_
  exact runPhases_cons_of_ne _ _ _ (by simp)

end Sys2Proof.Machine
end

section
/-! PROOFS. The packing of BC6H samples in a port lane (R25). -/

namespace Sys2Proof.Machine

/-- A packed sample is the base-65536 numeral of its channels, each taken modulo 65536, with R lowest. -/
theorem pack6_toNat (v : Nat → Int) :
    ((pack6 v).toNat : Int) = v 2 % 65536 * 2 ^ 32 + v 1 % 65536 * 2 ^ 16 + v 0 % 65536 := by
  have hword (n : Int) : ((BitVec.ofInt 16 n).toNat : Int) = n % 65536 := by
    rw [BitVec.toNat_ofInt]
    omega
  rw [pack6, toNat_append_eq_add, toNat_append_eq_add, toNat_append_eq_add]
  push_cast [hword]
  ring

/-- Channel `c` of a packed sample, as a word. -/
theorem extractLsb'_pack6 (v : Nat → Int) {c : Nat} (hc : c < 3) :
    (pack6 v).extractLsb' (16 * c) 16 = BitVec.ofInt 16 (v c) := by
  have h := pack6_toNat v
  apply BitVec.eq_of_toNat_eq
  rw [BitVec.extractLsb'_toNat, Nat.shiftRight_eq_div_pow, BitVec.toNat_ofInt]
  interval_cases c <;> omega

/-- A channel that fits 16 bits of the format's signedness is read back as it was packed. -/
theorem chan6_pack6 {sg : Bool} {v : Nat → Int} {c : Nat} (hc : c < 3) (h : fits (v c) 16 sg = true) :
    chan6 sg (pack6 v) c = v c := by
  rw [chan6, extractLsb'_pack6 v hc]
  cases sg with
  | true =>
    obtain ⟨hlo, hhi⟩ := (fits_signed_iff _ _).mp h
    exact BitVec.toInt_ofInt_eq_self (by decide) hlo (by omega)
  | false =>
    obtain ⟨hlo, hhi⟩ := (fits_unsigned_iff _ _).mp h
    rw [if_neg (by decide), BitVec.toNat_ofInt]
    omega

end Sys2Proof.Machine
end

section
/-! PROOFS. The range of what a BC6H block decodes to (R185): an `EP`-bit endpoint unquantizes into a range, where
interpolation stays, and the finish is monotone. -/

namespace Sys2Proof.Machine

/-! ## Each step of the chain -/

theorem uq6_unsigned_mem {q : Int} {p : Nat} (hp : p ≤ 16) (h : fits q p false = true) :
    0 ≤ uq6 q p false ∧ uq6 q p false ≤ 65535 := by
  obtain ⟨hlo, hhi⟩ := (fits_unsigned_iff q p).mp h
  have hN : (0 : Int) < 2 ^ p := by positivity
  have hN16 : (2 : Int) ^ p ≤ 2 ^ 16 := pow_le_pow_right₀ (by decide) hp
  rw [uq6, if_pos rfl]
  split_ifs
  · omega
  · omega
  · omega
  · have hlt : (q * 2 ^ 16 + 0x8000) / 2 ^ p < 65536 := Int.ediv_lt_of_lt_mul hN (by omega)
    exact ⟨by positivity, by omega⟩

/-- Below passthrough the signed unquantizer clamps the magnitude, whatever the endpoint. -/
theorem uq6_signed_mem (q : Int) {p : Nat} (hp : p < 16) :
    -32767 ≤ uq6 q p true ∧ uq6 q p true ≤ 32767 := by
  have hN : (0 : Int) < 2 ^ (p - 1) := by positivity
  simp only [uq6, Bool.true_eq_false, if_false, if_neg (Nat.not_le.mpr hp)]
  by_cases hclamp : 2 ^ (p - 1) - 1 ≤ (q.natAbs : Int)
  · simp only [if_pos hclamp]
    split_ifs <;> omega
  · have hnonneg : 0 ≤ ((q.natAbs : Int) * 2 ^ 15 + 0x4000) / 2 ^ (p - 1) := by positivity
    have hlt : ((q.natAbs : Int) * 2 ^ 15 + 0x4000) / 2 ^ (p - 1) < 32768 := Int.ediv_lt_of_lt_mul hN (by omega)
    simp only [if_neg hclamp]
    split_ifs <;> omega

/-- At passthrough a signed endpoint is a 16-bit number. -/
theorem uq6_signed_passthrough_mem {q : Int} (h : fits q 16 true = true) :
    -32768 ≤ uq6 q 16 true ∧ uq6 q 16 true ≤ 32767 := by
  obtain ⟨hlo, hhi⟩ := (fits_signed_iff q 16).mp h
  have hq : uq6 q 16 true = q := by simp [uq6]
  omega

theorem interp_mem {a b lo hi w : Int} (ha : lo ≤ a ∧ a ≤ hi) (hb : lo ≤ b ∧ b ≤ hi) (hw : 0 ≤ w) (hw' : w ≤ 64) :
    lo ≤ interp tables a b w ∧ interp tables a b w ≤ hi := by
  have hlo : lo * 64 ≤ a * (64 - w) + b * w := by nlinarith
  have hhi : a * (64 - w) + b * w ≤ hi * 64 := by nlinarith
  rw [interp_tables]
  omega

theorem fin6_le_fin6 {x y : Int} (h : x ≤ y) (sg : Bool) : fin6 x sg ≤ fin6 y sg := by
  simp only [fin6]
  split_ifs <;> omega

theorem pal6_mem {d : Desc6} {sg : Bool} {q : Nat → Nat → Int} {r c : Nat} {lo hi : Int}
    (h : ∀ e, e = 2 * r ∨ e = 2 * r + 1 → lo ≤ uq6 (q e c) d.EP sg ∧ uq6 (q e c) d.EP sg ≤ hi) (j : Nat) :
    fin6 lo sg ≤ pal6 tables d sg q r j c ∧ pal6 tables d sg q r j c ≤ fin6 hi sg := by
  have hw : (tables.weight d.IP j : Int) ≤ 64 := mod_cast weight_le d.IP j
  obtain ⟨hlo, hhi⟩ := interp_mem (h _ (.inl rfl)) (h _ (.inr rfl)) (Int.natCast_nonneg _) hw
  exact ⟨fin6_le_fin6 hlo sg, fin6_le_fin6 hhi sg⟩

/-! ## The endpoints of a decoded block -/

theorem fits_sext (v : Int) {n : Nat} (hn : 1 ≤ n) : fits (sext v n) n true = true := by
  rw [sext_eq_toInt v hn, fits_signed_iff]
  exact ⟨BitVec.le_toInt _, Int.le_sub_one_of_lt BitVec.toInt_lt⟩

theorem fits_emod (v : Int) (n : Nat) : fits (v % 2 ^ n) n false = true := by
  have hN : (0 : Int) < 2 ^ n := by positivity
  rw [fits_unsigned_iff]
  exact ⟨Int.emod_nonneg v hN.ne', Int.le_sub_one_of_lt (Int.emod_lt_of_pos v hN)⟩

/-- A stored field read with the format's signedness (R254). -/
theorem fits_ite_sext {v n : Nat} (hn : 1 ≤ n) (h : v < 2 ^ n) (sg : Bool) :
    fits (if sg then sext v n else v) n sg = true := by
  cases sg with
  | true => exact fits_sext v hn
  | false =>
    rw [if_neg (by decide), fits_unsigned_iff]
    zify at h
    omega

theorem fits_invTransform (base delta : Int) {EP : Nat} (hEP : 1 ≤ EP) (sg : Bool) :
    fits (invTransform base delta EP sg) EP sg = true := by
  cases sg with
  | true => exact fits_sext _ hEP
  | false => exact fits_emod _ _

theorem bc6h_endpoint_widths : ∀ k : Fin 14,
    let d := tables.bc6h (k + 1)
    1 ≤ d.EP ∧ d.EP ≤ 16 ∧ (d.tr = false → ∀ c < 3, d.dW c = d.EP) := by
  decide

/-- Every endpoint of a decoded block is an `EP`-bit number of the format's signedness. -/
theorem fits_refEndpoint6 (k : Fin 14) (sg : Bool) (B : Block) {e c : Nat} (he : e < (tables.bc6h (k + 1)).ne)
    (hc : c < 3) :
    fits (refEndpoint6 (k + 1) sg (parse6 tables (k + 1) B) e c) (tables.bc6h (k + 1)).EP sg = true := by
  obtain ⟨hEP, -, hdW⟩ := bc6h_endpoint_widths k
  have hlt := parse6_ep_lt k B e c
  rw [Desc6.fieldWidth, if_pos hc, Desc6.epWidth] at hlt
  rw [refEndpoint6_eq]
  by_cases htr : (tables.bc6h (k + 1)).tr = true ∧ e ≠ 0
  · simp only [if_pos htr]
    exact fits_invTransform _ _ hEP sg
  simp only [if_neg htr, extendField]
  by_cases he0 : e = 0
  · rw [if_pos he0] at hlt ⊢
    exact fits_ite_sext hEP hlt sg
  · have htr' : (tables.bc6h (k + 1)).tr = false := by simpa [he0] using htr
    rw [if_neg he0, if_pos he, hdW htr' c hc] at hlt
    rw [if_neg he0, htr', Bool.or_false, hdW htr' c hc]
    exact fits_ite_sext hEP hlt sg

/-! ## The pixels -/

theorem fits_of_mem {a x b : Int} {n : Nat} {sg : Bool} (ha : fits a n sg = true) (hb : fits b n sg = true)
    (hx : a ≤ x ∧ x ≤ b) : fits x n sg = true := by
  obtain ⟨hax, hxb⟩ := hx
  cases sg with
  | true =>
    rw [fits_signed_iff] at *
    omega
  | false =>
    rw [fits_unsigned_iff] at *
    omega

/-- A pixel of the reference is a palette entry of its region, packed (R257). -/
theorem rd_refTile6 (mode : Nat) (sg : Bool) (f : Bc6hFields) {i : Nat} (hi : i < 16) :
    rd (refTile6 mode sg f) i 0 = pack6 (pal6 tables (tables.bc6h mode) sg (refEndpoint6 mode sg f)
      (tables.region (tables.bc6h mode).P f.shape i) (rd f.ix i 0)) := by
  rw [refTile6, rd_tab _ _ _ hi]
  exact pack6_congr fun c _ => by rw [pal6]

/-- Where the unquantized endpoints of a block lie between `lo` and `hi`, its samples lie between the finished ones. -/
theorem chan6_refTile6_mem (k : Fin 14) (sg : Bool) (B : Block) {lo hi : Int} (hlo : fits (fin6 lo sg) 16 sg = true)
    (hhi : fits (fin6 hi sg) 16 sg = true)
    (h : ∀ q, fits q (tables.bc6h (k + 1)).EP sg = true →
      lo ≤ uq6 q (tables.bc6h (k + 1)).EP sg ∧ uq6 q (tables.bc6h (k + 1)).EP sg ≤ hi)
    {i c : Nat} (hi16 : i < 16) (hc : c < 3) :
    let x := chan6 sg (rd (refTile6 (k + 1) sg (parse6 tables (k + 1) B)) i 0) c
    fin6 lo sg ≤ x ∧ x ≤ fin6 hi sg := by
  obtain ⟨hP, -⟩ := bc6h_bounds k
  have hr := region_lt (tables.bc6h (k + 1)).P _ i (by omega) (parse6_shape_lt_64 k B) hi16
  have hpal := pal6_mem (r := tables.region (tables.bc6h (k + 1)).P (parse6 tables (k + 1) B).shape i)
    (fun e he => h _ (fits_refEndpoint6 k sg B (e := e) (by rw [Desc6.ne]; omega) hc))
    (rd (parse6 tables (k + 1) B).ix i 0)
  rwa [rd_refTile6 _ _ _ hi16, chan6_pack6 hc (fits_of_mem hlo hhi hpal)]

/-- An encoded block carries its mode's selector, whatever its fields. -/
theorem selector6_encode6 (k : Fin 14) (f : Bc6hFields) : selector6 tables (encode6 (k + 1) f) = some (k.val + 1) := by
  rw [selector6_eq_some_iff, ← toNat_and_two_pow_sub_one]
  exact Laws.SelectorBits.low_header f (k + 1) _ _ (by revert k; decide +kernel) (by revert k; decide +kernel)
    (by revert k; decide +kernel)

theorem pix_of_exec_bc6h {k : Fin 14} {f : Bc6hFields} {s t : State} (h : exec (.bc6h k f) s = .next t) :
    t.pix = refTile6 (k + 1) (sgOf s.fmt) (parse6 tables (k + 1) (encode6 (k + 1) f)) := by
  rw [exec_bc6h] at h
  have hdec := decodeBc6h_of_selector6 (s := { s with blk := encode6 (k + 1) f }) (selector6_encode6 k f)
  rw [← Host.Outcome.next.inj h, hdec]

/-- Settles O32: the `EP`-bit endpoints unquantize into 0..65535, below passthrough into ±32767 and at passthrough into
-32768..32767; interpolation stays between them, and finishing the ends gives the range of the samples. -/
theorem bc6hOutputRange : Obligations.Bc6hOutputRange := by
  intro k f s t _ hexec i hi c hc
  obtain ⟨-, hEP16, -⟩ := bc6h_endpoint_widths k
  simp only [pix_of_exec_bc6h hexec]
  generalize sgOf s.fmt = sg at *
  refine ⟨?unsigned, ?signed, ?signed16⟩
  case unsigned =>
    rintro rfl
    exact chan6_refTile6_mem k false _ (lo := 0) (hi := 65535) (by decide) (by decide)
      (fun q hq => uq6_unsigned_mem hEP16 hq) hi hc
  case signed =>
    rintro rfl hEP
    exact chan6_refTile6_mem k true _ (lo := -32767) (hi := 32767) (by decide) (by decide)
      (fun q _ => uq6_signed_mem q hEP) hi hc
  case signed16 =>
    rintro rfl hk
    have hEP : (tables.bc6h (k + 1)).EP = 16 := by rw [hk, bc6h_14]
    exact chan6_refTile6_mem k true _ (lo := -32768) (hi := 32767) (by decide) (by decide)
      (fun q hq => by rw [hEP] at hq ⊢; exact uq6_signed_passthrough_mem hq) hi hc

end Sys2Proof.Machine
end

section
/-! PROOFS. The weight tables (R201), the interpolator (R202) and the palettes it builds (R205): an entry moves from the
first endpoint to the second as its weight does, and finishing keeps the order. -/

namespace Sys2Proof

/-! ## The weights -/

theorem weight_first : ∀ ip < 5, tables.weight ip 0 = 0 := by decide

theorem weight_mirror : ∀ ip < 5, 2 ≤ ip → ∀ j < 2 ^ ip, tables.weight ip (2 ^ ip - 1 - j) = 64 - tables.weight ip j := by
  decide

/-- The last weight is the mirror image of the first. -/
theorem weight_last {ip : Nat} (hip : ip < 5) (hip' : 2 ≤ ip) : tables.weight ip (2 ^ ip - 1) = 64 := by
  have h := weight_mirror ip hip hip' 0 (by positivity)
  rwa [weight_first ip hip] at h

theorem weight_le_weight_succ : ∀ ip < 5, ∀ j < 2 ^ ip - 1, tables.weight ip j ≤ tables.weight ip (j + 1) := by decide

/-- Settles O16, by evaluating the three tables and the constants. -/
theorem weightTables : Obligations.WeightTables :=
  ⟨by decide, by decide, by decide, rfl, rfl, rfl, weight_mirror⟩

namespace Machine

/-! ## The interpolator -/

@[simp] theorem interp_weight_zero (a b : Int) : interp tables a b 0 = a := by
  rw [interp_tables]
  omega

@[simp] theorem interp_weight_max (a b : Int) : interp tables a b 64 = b := by
  rw [interp_tables]
  omega

/-- Swapping the endpoints mirrors the weight. -/
theorem interp_swap (a b w : Int) : interp tables a b w = interp tables b a (64 - w) := by
  rw [interp_tables, interp_tables]
  congr 1
  ring

/-- The weighted sum grows with the weight by `b - a` a step. -/
theorem interp_le_interp {a b w w' : Int} (hab : a ≤ b) (hw : w ≤ w') : interp tables a b w ≤ interp tables a b w' := by
  have hstep : 0 ≤ (b - a) * (w' - w) := mul_nonneg (sub_nonneg.mpr hab) (sub_nonneg.mpr hw)
  have hsum : a * (64 - w) + b * w ≤ a * (64 - w') + b * w' := by linarith
  rw [interp_tables, interp_tables]
  omega

theorem interp_le_interp_of_ge {a b w w' : Int} (hba : b ≤ a) (hw : w ≤ w') :
    interp tables a b w' ≤ interp tables a b w := by
  rw [interp_swap a b w', interp_swap a b w]
  exact interp_le_interp hba (by omega)

/-- Settles O22: both endpoints lie between their minimum and their maximum, and so does their weighted mean. -/
theorem interpolationRange : Obligations.InterpolationRange := fun a b w hw hw' =>
  ⟨interp_tables a b w, interp_mem ⟨min_le_left a b, le_max_left a b⟩ ⟨min_le_right a b, le_max_right a b⟩ hw hw'⟩

/-! ## The palettes -/

theorem pal7_first (E : Nat → Nat → Int) (r c : Nat) {ip : Nat} (hip : ip < 5) :
    pal7 tables E r ip 0 c = E (2 * r) c := by
  simp [pal7, weight_first ip hip]

theorem pal7_last (E : Nat → Nat → Int) (r c : Nat) {ip : Nat} (hip : ip < 5) (hip' : 2 ≤ ip) :
    pal7 tables E r ip (2 ^ ip - 1) c = E (2 * r + 1) c := by
  simp [pal7, weight_last hip hip']

theorem pal7_le_succ {E : Nat → Nat → Int} {r c ip j : Nat} (hip : ip < 5) (hj : j < 2 ^ ip - 1)
    (h : E (2 * r) c ≤ E (2 * r + 1) c) : pal7 tables E r ip j c ≤ pal7 tables E r ip (j + 1) c :=
  interp_le_interp h (mod_cast weight_le_weight_succ ip hip j hj)

theorem pal7_succ_le {E : Nat → Nat → Int} {r c ip j : Nat} (hip : ip < 5) (hj : j < 2 ^ ip - 1)
    (h : E (2 * r + 1) c ≤ E (2 * r) c) : pal7 tables E r ip (j + 1) c ≤ pal7 tables E r ip j c :=
  interp_le_interp_of_ge h (mod_cast weight_le_weight_succ ip hip j hj)

/-- A BC6H palette entry is the finished entry of the palette over the unquantized endpoints (R204). -/
theorem pal6_eq_fin6_pal7 (d : Desc6) (sg : Bool) (q : Nat → Nat → Int) (r j c : Nat) :
    pal6 tables d sg q r j c = fin6 (pal7 tables (fun e c => uq6 (q e c) d.EP sg) r d.IP j c) sg := rfl

/-- Settles O23: the weights run from 0 to 64 without falling, so a BC7 palette runs from its first endpoint to its
second; a BC6H palette is one over the unquantized endpoints, finished, and the finish is monotone. -/
theorem paletteEndsAndMonotonicity : Obligations.PaletteEndsAndMonotonicity := by
  refine ⟨fun a b => ⟨interp_weight_zero a b, interp_weight_max a b⟩, fun ip hip hip' => ⟨fun E r c => ?bc7, ?bc6h⟩⟩
  case bc7 =>
    exact ⟨pal7_first E r c hip, pal7_last E r c hip hip', fun j hj => pal7_le_succ hip hj,
      fun j hj => pal7_succ_le hip hj⟩
  case bc6h =>
    rintro d sg q r c rfl
    simp only [pal6_eq_fin6_pal7, pal7_first _ _ _ hip, pal7_last _ _ _ hip hip']
    exact ⟨trivial, trivial, fun j hj h => fin6_le_fin6 (pal7_le_succ hip hj h) sg,
      fun j hj h => fin6_le_fin6 (pal7_succ_le hip hj h) sg⟩

end Machine
end Sys2Proof
end

section
/-! PROOFS. The nearest-entry search of the index assigner (R212). -/

namespace Sys2Proof.Machine

theorem nearest_fst_le (D : Nat → Nat) (n : Nat) : (nearest D n).1 ≤ n := by
  induction n with
  | zero => exact le_rfl
  | succ n ih =>
    rw [nearest_succ]
    split
    · exact le_rfl
    · exact Nat.le_succ_of_le ih

theorem nearest_snd (D : Nat → Nat) (n : Nat) : (nearest D n).2 = D (nearest D n).1 := by
  induction n with
  | zero => rfl
  | succ n ih =>
    rw [nearest_succ]
    split
    · rfl
    · exact ih

theorem nearest_snd_le (D : Nat → Nat) {n k : Nat} (hk : k ≤ n) : (nearest D n).2 ≤ D k := by
  induction n with
  | zero => rw [Nat.le_zero.mp hk, nearest_zero]
  | succ n ih =>
    rw [nearest_succ]
    obtain hk | rfl := Nat.le_or_eq_of_le_succ hk <;> split
    next hnearer => exact hnearer.le.trans (ih hk)
    next => exact ih hk
    next => exact le_rfl
    next hnot => exact Nat.le_of_not_lt hnot

/-- The tie rule: a later entry is taken only where it is strictly nearer than all before it. -/
theorem nearest_snd_lt (D : Nat → Nat) {n k : Nat} (hk : k < (nearest D n).1) : (nearest D n).2 < D k := by
  induction n with
  | zero => exact absurd hk (Nat.not_lt_zero k)
  | succ n ih =>
    rw [nearest_succ] at hk ⊢
    split at hk
    next hnearer =>
      rw [if_pos hnearer]
      exact hnearer.trans_le (nearest_snd_le D (Nat.le_of_lt_succ hk))
    next hnot =>
      rw [if_neg hnot]
      exact ih hk

/-- Settles O25, by induction on the number of entries scanned, one clause at a time. -/
theorem nearestIsTheFirstMinimum : Obligations.NearestIsTheFirstMinimum := fun D n =>
  ⟨nearest_fst_le D n, nearest_snd D n, fun _ hk => nearest_snd_le D hk, fun _ hk => nearest_snd_lt D hk⟩

end Sys2Proof.Machine
end

section
/-! PROOFS. The fixup normalisation (R218 to R220): what `E4` leaves in the index arrays. An index is mirrored exactly
where the index at its region's fixup pixel has its high bit set, because the turns of the loop touch disjoint regions;
and mirroring an index clears its high bit. -/

namespace Sys2Proof.Machine

/-- The mirrored index is the bitwise complement, so an index mirrored where its high bit is set has it clear. -/
theorem testBit_mirrored_highBit {ip j : Nat} (hj : j < 2 ^ ip) :
    (mirrored (j.testBit (ip - 1)) ip j).testBit (ip - 1) = false := by
  cases hbit : j.testBit (ip - 1) with
  | false => rwa [mirrored_false]
  | true =>
    have hmirror : mirrored true ip j = 2 ^ ip - (j + 1) := by
      rw [mirrored, if_pos rfl]
      omega
    rw [hmirror, Nat.testBit_two_pow_sub_succ hj, hbit, Bool.not_true, Bool.and_false]

/-! ## The loop over the regions (R218) -/

/-- Whether the turn for region `r` swaps: the high bit of the `ip`-bit index at the region's fixup pixel. -/
def swapsRegion (T : Tables) (P ip : Nat) (s : State) (r : Nat) : Bool :=
  (rd s.ix1 (T.fixup P s.shape r) 0).testBit (ip - 1)

@[simp] theorem fixRegion_shape (T : Tables) (P ip : Nat) (ownPb : Bool) (s : State) (r : Nat) :
    (fixRegion T P ip ownPb s r).shape = s.shape := by
  unfold fixRegion
  split <;> rfl

theorem rd_ix1_fixRegion (T : Tables) (P ip : Nat) (ownPb : Bool) (s : State) (r : Nat) {i : Nat} (hi : i < 16) :
    rd (fixRegion T P ip ownPb s r).ix1 i 0 =
      mirrored (decide (T.region P s.shape i = r) && swapsRegion T P ip s r) ip (rd s.ix1 i 0) := by
  unfold fixRegion swapsRegion
  split
  next hbit => simp [hi, hbit, mirrored]
  next hbit => simp [hbit]

@[simp] theorem foldl_fixRegion_shape (T : Tables) (P ip : Nat) (ownPb : Bool) (s : State) (l : List Nat) :
    (l.foldl (fixRegion T P ip ownPb) s).shape = s.shape := by
  induction l generalizing s with
  | nil => rfl
  | cons r l ih => rw [List.foldl_cons, ih, fixRegion_shape]

/-- After the turns for the regions below `n`. The turn for region `n` still finds at its fixup pixel the index the loop
started with, as that pixel lies in region `n` (R157 (c)). -/
theorem rd_ix1_foldl_fixRegion {P ip : Nat} (ownPb : Bool) {s : State} (hP : P < 3) (hs : s.shape < 64) {n : Nat}
    (hn : n ≤ P + 1) {i : Nat} (hi : i < 16) :
    rd ((List.range n).foldl (fixRegion tables P ip ownPb) s).ix1 i 0 =
      mirrored (decide (tables.region P s.shape i < n) && swapsRegion tables P ip s (tables.region P s.shape i)) ip
        (rd s.ix1 i 0) := by
  induction n generalizing i with
  | zero => simp
  | succ n ih =>
    have hswaps : swapsRegion tables P ip ((List.range n).foldl (fixRegion tables P ip ownPb) s) n =
        swapsRegion tables P ip s n := by
      rw [swapsRegion, foldl_fixRegion_shape, ih (by omega) (fixup_lt P s.shape n hs),
        region_fixup P hP s.shape hs n (by omega)]
      simp [swapsRegion]
    rw [List.range_succ, List.foldl_append, List.foldl_cons, List.foldl_nil, rd_ix1_fixRegion _ _ _ _ _ _ hi, hswaps,
      foldl_fixRegion_shape, ih (by omega) hi]
    obtain hlt | heq | hgt := lt_trichotomy (tables.region P s.shape i) n
    · simp [hlt, hlt.ne, Nat.lt_succ_of_lt hlt]
    · simp [heq]
    · simp [hgt.ne', hgt.not_gt, show ¬ tables.region P s.shape i < n + 1 by omega]

theorem rd_ix1_fixRegions {P ip : Nat} (ownPb : Bool) {s : State} (hP : P < 3) (hs : s.shape < 64) {i : Nat}
    (hi : i < 16) :
    rd (fixRegions tables P ip ownPb s).ix1 i 0 =
      mirrored (swapsRegion tables P ip s (tables.region P s.shape i)) ip (rd s.ix1 i 0) := by
  have hr := region_lt P s.shape i (by omega) hs hi
  rw [fixRegions, rd_ix1_foldl_fixRegion ownPb hP hs le_rfl hi, decide_eq_true (Nat.lt_succ_of_le hr), Bool.true_and]

theorem testBit_fixRegions_fixup {P ip : Nat} (ownPb : Bool) {s : State} (hP : P < 3) (hs : s.shape < 64)
    (hix : ∀ i < 16, rd s.ix1 i 0 < 2 ^ ip) {r : Nat} (hr : r ≤ P) :
    (rd (fixRegions tables P ip ownPb s).ix1 (tables.fixup P s.shape r) 0).testBit (ip - 1) = false := by
  have hpix := fixup_lt P s.shape r hs
  rw [rd_ix1_fixRegions ownPb hP hs hpix, region_fixup P hP s.shape hs r hr, swapsRegion]
  exact testBit_mirrored_highBit (hix _ hpix)

/-! ## The two arrays of a dual-index mode (R219) -/

@[simp] theorem fixArray1_ix2 (d : Desc7) (s : State) : (fixArray1 d s).ix2 = s.ix2 := by
  unfold fixArray1
  split <;> rfl

@[simp] theorem fixArray2_ix1 (d : Desc7) (s : State) : (fixArray2 d s).ix1 = s.ix1 := by
  unfold fixArray2
  split <;> rfl

theorem rd_ix1_fixArray1 (d : Desc7) (s : State) {i : Nat} (hi : i < 16) :
    rd (fixArray1 d s).ix1 i 0 = mirrored ((rd s.ix1 0 0).testBit (d.IP - 1)) d.IP (rd s.ix1 i 0) := by
  unfold fixArray1
  split
  next hbit => simp [hi, hbit, mirrored]
  next hbit => simp [hbit]

theorem rd_ix2_fixArray2 (d : Desc7) (s : State) {i : Nat} (hi : i < 16) :
    rd (fixArray2 d s).ix2 i 0 = mirrored ((rd s.ix2 0 0).testBit (d.IP2 - 1)) d.IP2 (rd s.ix2 i 0) := by
  unfold fixArray2
  split
  next hbit => simp [hi, hbit, mirrored]
  next hbit => simp [hbit]

/-! ## `E4` -/

theorem e4Bc7_of_single {T : Tables} {s : State} (h : (T.bc7 s.mode).IP2 = 0) :
    e4Bc7 T s = fixRegions T (T.bc7 s.mode).P (T.bc7 s.mode).IP ((T.bc7 s.mode).NP == (T.bc7 s.mode).ne)
      { s with ph := .e4 } :=
  if_neg h.not_gt

theorem e4Bc7_of_dual {T : Tables} {s : State} (h : 0 < (T.bc7 s.mode).IP2) :
    e4Bc7 T s = fixArray2 (T.bc7 s.mode) (fixArray1 (T.bc7 s.mode) { s with ph := .e4 }) :=
  if_pos h

/-- The dual-index modes have one region, whose fixup pixel is pixel 0. -/
theorem bc7_P_eq_zero_of_dual : ∀ m < 8, 0 < (tables.bc7 m).IP2 → (tables.bc7 m).P = 0 := by decide

theorem testBit_ix1_e4Bc7_fixup {s : State} (hm : s.mode < 8) (hs : s.shape < 2 ^ (tables.bc7 s.mode).PB)
    (hix : ∀ i < 16, rd s.ix1 i 0 < 2 ^ (tables.bc7 s.mode).IP) {r : Nat} (hr : r ≤ (tables.bc7 s.mode).P) :
    (rd (e4Bc7 tables s).ix1 (tables.fixup (tables.bc7 s.mode).P s.shape r) 0).testBit ((tables.bc7 s.mode).IP - 1) =
      false := by
  obtain ⟨hP, hPB, -⟩ := bc7_index_bounds s.mode hm
  obtain hsingle | hdual := Nat.eq_zero_or_pos (tables.bc7 s.mode).IP2
  · rw [e4Bc7_of_single hsingle]
    exact testBit_fixRegions_fixup (s := { s with ph := .e4 }) _ hP (hs.trans_le hPB) hix hr
  · obtain rfl : r = 0 := Nat.le_zero.mp (hr.trans_eq (bc7_P_eq_zero_of_dual s.mode hm hdual))
    have hpix : tables.fixup (tables.bc7 s.mode).P s.shape 0 = 0 := if_pos rfl
    rw [e4Bc7_of_dual hdual, hpix, fixArray2_ix1, rd_ix1_fixArray1 _ _ (by decide)]
    exact testBit_mirrored_highBit (hix 0 (by decide))

theorem testBit_ix2_e4Bc7_zero {s : State} (hdual : 0 < (tables.bc7 s.mode).IP2)
    (hix : rd s.ix2 0 0 < 2 ^ (tables.bc7 s.mode).IP2) :
    (rd (e4Bc7 tables s).ix2 0 0).testBit ((tables.bc7 s.mode).IP2 - 1) = false := by
  rw [e4Bc7_of_dual hdual, rd_ix2_fixArray2 _ _ (by decide), fixArray1_ix2]
  exact testBit_mirrored_highBit hix

theorem testBit_e4Bc6h_fixup {s : State} (k : Fin 14) (hmode : s.mode = k + 1)
    (hs : s.shape < 2 ^ (tables.bc6h s.mode).shapeBits) (hix : ∀ i < 16, rd s.ix1 i 0 < 2 ^ (tables.bc6h s.mode).IP)
    {r : Nat} (hr : r ≤ (tables.bc6h s.mode).P) :
    (rd (e4Bc6h tables s).ix1 (tables.fixup (tables.bc6h s.mode).P s.shape r) 0).testBit
      ((tables.bc6h s.mode).IP - 1) = false := by
  obtain ⟨hP, -, hbits, -⟩ := hmode ▸ bc6h_bounds k
  exact testBit_fixRegions_fixup (s := { s with ph := .e4 }) _ (by omega) (hs.trans_le hbits) hix hr

/-- Settles O43: the index at a fixup pixel is mirrored exactly where its own high bit is set, in the array of every
mode and in both arrays of a dual-index mode. -/
theorem fixupClearsTheHighBit : Obligations.FixupClearsTheHighBit := by
  refine ⟨?bc7, ?bc6h⟩
  case bc7 =>
    rintro m s hm rfl hs hix
    exact ⟨fun r hr => testBit_ix1_e4Bc7_fixup hm hs (fun i hi => (hix i hi).1) hr,
      fun hdual => testBit_ix2_e4Bc7_zero hdual ((hix 0 (by decide)).2 hdual)⟩
  case bc6h =>
    rintro m s hm hm' rfl hs hix r hr
    exact testBit_e4Bc6h_fixup ⟨s.mode - 1, by omega⟩ (Nat.sub_add_cancel hm).symm hs hix hr

end Sys2Proof.Machine
end

section
/-! PROOFS. Precise faults (R312, R313): what a fault leaves alone, and everything an `ENC*` can end with. -/

namespace Sys2Proof.Machine

/-! ## Phases in order -/

/-- A first part of an operation ends it in `FAULT`, or the rest runs from where the first part left off. -/
theorem runPhases_append_cases (fs gs : List (State → State)) (s : State) :
    ((runPhases fs s).ph = .fault ∧ runPhases (fs ++ gs) s = runPhases fs s) ∨
      runPhases (fs ++ gs) s = runPhases gs (runPhases fs s) := by
  induction fs generalizing s with
  | nil => exact .inr rfl
  | cons f fs ih =>
    rw [List.cons_append]
    by_cases hf : (f s).ph = .fault
    · rw [runPhases_cons_of_fault f fs s hf, runPhases_cons_of_fault f (fs ++ gs) s hf]
      exact .inl ⟨hf, rfl⟩
    · rw [runPhases_cons_of_ne f fs s hf, runPhases_cons_of_ne f (fs ++ gs) s hf]
      exact ih (f s)

/-- What the first phase brings about and every later one keeps, the operation brings about. -/
theorem runPhases_establishes {P : State → Prop} {f : State → State} {fs : List (State → State)} {s : State}
    (h0 : P (f s)) (h : ∀ g ∈ fs, ∀ u, P u → P (g u)) : P (runPhases (f :: fs) s) := by
  by_cases hf : (f s).ph = .fault
  · rwa [runPhases_cons_of_fault f fs s hf]
  · rw [runPhases_cons_of_ne f fs s hf]
    exact runPhases_keeps P fs (f s) h0 h

/-! ## Decode -/

/-- The pixel buffer holds `pix`, and a fault shows in the response with its status alone (R312, R313). -/
def State.Precise (pix : Tile) (s : State) : Prop :=
  s.pix = pix ∧ (s.ph = .fault → s.rsp = some (Response.statusOnly s.status))

section
variable {pix : Tile} {s : State}

theorem State.Precise.pix_eq (h : s.Precise pix) : s.pix = pix := h.1

theorem State.Precise.rsp_of_fault (h : s.Precise pix) (hph : s.ph = .fault) :
    s.rsp = some (Response.statusOnly s.status) := h.2 hph

theorem State.precise_of_ph (p : Phase) (hpix : s.pix = pix) (hph : s.ph = p := by rfl)
    (hp : p ≠ .fault := by decide) : s.Precise pix :=
  ⟨hpix, fun h => absurd (hph.symm.trans h) hp⟩

theorem State.precise_raise (hpix : s.pix = pix) (c : Status) : (s.raise c).Precise pix := ⟨hpix, fun _ => rfl⟩

theorem State.precise_getAll (p : Phase) (hpix : s.pix = pix) (c : Status) (ws : List Nat)
    (hp : p ≠ .fault := by decide) : (State.getAll c ws { s with ph := p }).2.Precise pix := by
  obtain h | ⟨-, hstatus, hrsp⟩ := State.getAll_ph c ws { s with ph := p }
  · rw [h]
    exact State.precise_of_ph p hpix rfl hp
  · refine ⟨(State.getAll_pix c ws _).trans hpix, fun _ => ?_⟩
    rw [hrsp, hstatus]

theorem precise_d0Bc7 (s : State) : (d0Bc7 s).Precise s.pix := by
  unfold d0Bc7
  split
  · exact State.precise_raise (s := { s with ph := .d0 }) rfl _
  · exact State.precise_of_ph .d0 rfl

theorem precise_d1Bc6h (T : Tables) (h : s.Precise pix) : (d1Bc6h T s).Precise pix := by
  unfold d1Bc6h
  split
  · exact State.precise_raise (s := { s with ph := .d1 }) h.pix_eq _
  split
  · exact State.precise_raise (s := { s with ph := .d1, mode := _ }) h.pix_eq _
  · exact State.precise_of_ph .d1 h.pix_eq

theorem precise_checkLength (h : s.Precise pix) : (checkLength s).Precise pix := by
  unfold checkLength
  split
  · exact h
  · exact State.precise_raise h.pix_eq _

/-- The phases of R230 before `D6`. -/
def readPhases7 (T : Tables) : List (State → State) :=
  [d0Bc7, d1Bc7, d2Bc7 T, readEndpoints7 T, mergePbits7 T, d4Bc7, readIndices7 T, checkLength]

/-- The phases of R250 before `D6`. -/
def readPhases6 (T : Tables) : List (State → State) :=
  [d0Bc6h, d1Bc6h T, scanHeader6 T, signExtend6 T, inverse6 T, readIndices6 T, checkLength]

theorem precise_readPhases7 (T : Tables) (s : State) : (runPhases (readPhases7 T) s).Precise s.pix := by
  refine runPhases_establishes (precise_d0Bc7 s) ?_
  simp only [List.forall_mem_cons]
  refine ⟨?d1, ?d2, ?fields, ?pbits, ?d4, ?d5, fun u => precise_checkLength, by simp⟩ <;> intro u hu
  case d1 => exact State.precise_of_ph .d1 hu.pix_eq
  case d2 => exact State.precise_getAll .d2 hu.pix_eq _ _
  case fields => exact State.precise_getAll .d3 hu.pix_eq _ _
  case pbits => exact hu
  case d4 => exact State.precise_of_ph .d4 hu.pix_eq
  case d5 => exact State.precise_getAll .d5 hu.pix_eq _ _

theorem precise_readPhases6 (T : Tables) (s : State) : (runPhases (readPhases6 T) s).Precise s.pix := by
  refine runPhases_establishes (State.precise_of_ph .d0 rfl) ?_
  simp only [List.forall_mem_cons]
  refine ⟨fun u => precise_d1Bc6h T, ?header, ?signs, ?inverse, ?d5, fun u => precise_checkLength, by simp⟩ <;>
    intro u hu
  case header => exact State.precise_getAll .d3 hu.pix_eq _ _
  case signs => exact State.precise_of_ph .d4 hu.pix_eq
  case inverse => exact hu
  case d5 => exact State.precise_getAll .d5 hu.pix_eq _ _

/-- The phases from `D6` on, which write the pixels, raise nothing. -/
theorem precise_fault_of_output {d6 : State → State} (hd6 : ∀ u, (d6 u).ph = .d6) {fs : List (State → State)}
    (hread : (runPhases fs s).Precise pix) (hfault : (runPhases (fs ++ [d6, State.respondDec]) s).ph = .fault) :
    let u := runPhases (fs ++ [d6, State.respondDec]) s
    u.pix = pix ∧ u.rsp = some (Response.statusOnly u.status) := by
  obtain ⟨hph, h⟩ | h := runPhases_append_cases fs [d6, State.respondDec] s
  · simp only [h]
    exact ⟨hread.pix_eq, hread.rsp_of_fault hph⟩
  · rw [h, runPhases_cons_of_ne _ _ _ (by simp [hd6]), runPhases_cons_of_ne _ _ _ (by simp)] at hfault
    exact absurd hfault (by simp)

end

theorem decodeBc7_precise_of_fault {T : Tables} {s : State} (h : (decodeBc7 T s).ph = .fault) :
    (decodeBc7 T s).pix = s.pix ∧ (decodeBc7 T s).rsp = some (Response.statusOnly (decodeBc7 T s).status) :=
  precise_fault_of_output (d6 := d6Bc7 T) (fun _ => rfl) (precise_readPhases7 T s) h

theorem decodeBc6h_precise_of_fault {T : Tables} {s : State} (h : (decodeBc6h T s).ph = .fault) :
    (decodeBc6h T s).pix = s.pix ∧ (decodeBc6h T s).rsp = some (Response.statusOnly (decodeBc6h T s).status) :=
  precise_fault_of_output (d6 := d6Bc6h T) (fun _ => rfl) (precise_readPhases6 T s) h

/-! ## Encode: the fixup moves endpoints, p-bits and indices alone -/

theorem fixRegions_frame (T : Tables) (P ip : Nat) (ownPb : Bool) (s : State) :
    ∃ ep pb ix1, fixRegions T P ip ownPb s = { s with ep := ep, pb := pb, ix1 := ix1 } := by
  refine List.foldlRecOn (motive := fun u : State => ∃ ep pb ix1, u = { s with ep := ep, pb := pb, ix1 := ix1 }) _ _
    ⟨s.ep, s.pb, s.ix1, rfl⟩ ?_
  rintro _ ⟨ep, pb, ix1, rfl⟩ r -
  unfold fixRegion
  split <;> exact ⟨_, _, _, rfl⟩

theorem fixArray1_frame (d : Desc7) (s : State) : ∃ ep ix1, fixArray1 d s = { s with ep := ep, ix1 := ix1 } := by
  unfold fixArray1
  split <;> exact ⟨_, _, rfl⟩

theorem fixArray2_frame (d : Desc7) (s : State) : ∃ ep ix2, fixArray2 d s = { s with ep := ep, ix2 := ix2 } := by
  unfold fixArray2
  split <;> exact ⟨_, _, rfl⟩

theorem e4Bc6h_frame (T : Tables) (s : State) :
    ∃ ep pb ix1, e4Bc6h T s = { s with ph := .e4, ep := ep, pb := pb, ix1 := ix1 } :=
  fixRegions_frame T _ _ false { s with ph := .e4 }

theorem e3Bc7_ph (T : Tables) (s : State) : (e3Bc7 T s).ph = .e3 := by
  by_cases hdual : 0 < (T.bc7 s.mode).IP2 <;> simp [e3Bc7, hdual, addErrors]

theorem e4Bc7_ph (T : Tables) (s : State) : (e4Bc7 T s).ph = .e4 := by
  obtain hsingle | hdual := Nat.eq_zero_or_pos (T.bc7 s.mode).IP2
  · obtain ⟨_, _, _, h⟩ := fixRegions_frame T (T.bc7 s.mode).P (T.bc7 s.mode).IP
      ((T.bc7 s.mode).NP == (T.bc7 s.mode).ne) { s with ph := .e4 }
    rw [e4Bc7_of_single hsingle, h]
  · obtain ⟨_, _, h1⟩ := fixArray1_frame (T.bc7 s.mode) { s with ph := .e4 }
    obtain ⟨_, _, h2⟩ := fixArray2_frame (T.bc7 s.mode) (fixArray1 (T.bc7 s.mode) { s with ph := .e4 })
    rw [e4Bc7_of_dual hdual, h2, h1]

/-! ## Encode: everything it can end with -/

/-- How packing ends: the block is full and answered, or the operation ends in `CursorRange` (R287). -/
def State.PackEnds (s : State) : Prop :=
  (s.ph = .e7 ∧ s.status = .ok) ∨
    (s.ph = .fault ∧ s.status = .cursorRange ∧ s.rsp = some (Response.statusOnly .cursorRange))

theorem State.packEnds_raise (s : State) : (s.raise .cursorRange).PackEnds := .inr ⟨rfl, rfl, rfl⟩

theorem State.PackEnds.status_ne_noFit {s : State} (h : s.PackEnds) : s.status ≠ .noFit := by
  obtain ⟨-, h⟩ | ⟨-, h, -⟩ := h <;> simp [h]

theorem State.PackEnds.of_fault {s : State} (h : s.PackEnds) (hph : s.ph = .fault) :
    s.status = .cursorRange ∧ s.rsp = some (Response.statusOnly s.status) := by
  obtain ⟨he7, -⟩ | ⟨-, hstatus, hrsp⟩ := h
  · simp [he7] at hph
  · exact ⟨hstatus, hstatus ▸ hrsp⟩

theorem e6Check_of_eq {s : State} (h : s.cur = 128) : e6Check s = s := if_pos h

/-- The length check and the response, from a state that packing left. -/
theorem packEnds_of_check {s : State} (hph : s.ph ≠ .fault) : (runPhases [e6Check, State.respondEnc] s).PackEnds := by
  by_cases hcur : s.cur = 128
  · rw [runPhases_cons_eq (e6Check_of_eq hcur) hph, runPhases_cons_of_ne _ _ _ (by simp)]
    exact .inl ⟨rfl, rfl⟩
  · have hcheck : e6Check s = s.raise .cursorRange := if_neg hcur
    rw [runPhases_cons_of_fault _ _ _ (by simp [hcheck]), hcheck]
    exact s.packEnds_raise

/-- `E6` and what follows it, whatever fields it packs. -/
theorem packEnds_of_putAll {e6 : State → State} {s : State} (fs : List (Nat × Nat))
    (he6 : e6 s = State.putAll fs { s with ph := .e6 }) : (runPhases [e6, e6Check, State.respondEnc] s).PackEnds := by
  obtain ⟨hput, -⟩ | ⟨_, _, _, -, -, hput⟩ := State.putAll_cases fs { s with ph := .e6 }
  · rw [runPhases_cons_eq (he6.trans hput) (by simp)]
    exact packEnds_of_check (by simp)
  · rw [runPhases_cons_of_fault _ _ _ (by simp [he6, hput]), he6, hput]
    exact State.packEnds_raise _

theorem e0Bc7_of_valid {T : Tables} {q : Bool} {c : Candidate} (h : ValidBc7 T q c) (s : State) :
    e0Bc7 T q c s = loadCandidate c s := if_pos h

theorem e0Bc7_of_not_valid {T : Tables} {q : Bool} {c : Candidate} (h : ¬ ValidBc7 T q c) (s : State) :
    e0Bc7 T q c s = { s with ph := .e0 }.raise .badCandidate := if_neg h

theorem e0Bc6h_of_valid {T : Tables} {q : Bool} {c : Candidate} {s : State} (h : ValidBc6h T q (sgOf s.fmt) c) :
    e0Bc6h T q c s = loadCandidate c s := if_pos h

theorem e0Bc6h_of_not_valid {T : Tables} {q : Bool} {c : Candidate} {s : State}
    (h : ¬ ValidBc6h T q (sgOf s.fmt) c) : e0Bc6h T q c s = { s with ph := .e0 }.raise .badCandidate := if_neg h

/-- After `E0` no BC7 phase before `E6` raises. -/
theorem encodeBc7_of_valid {T : Tables} {q : Bool} {c : Candidate} (h : ValidBc7 T q c) (s : State) :
    ∃ u, encodeBc7 T q c s = runPhases [e6Bc7 T, e6Check, State.respondEnc] u := by
  refine ⟨e5Bc7 (e4Bc7 T (e3Bc7 T (e2Palette (e1Bc7 T q c (loadCandidate c s))))), ?_⟩
  rw [encodeBc7, runPhases_cons_eq (e0Bc7_of_valid h s) (by simp [loadCandidate]),
    runPhases_cons_of_ne _ _ _ (by simp [e1Bc7]), runPhases_cons_of_ne _ _ _ (by simp [e2Palette]),
    runPhases_cons_of_ne _ _ _ (by simp [e3Bc7_ph]), runPhases_cons_of_ne _ _ _ (by simp [e4Bc7_ph]),
    runPhases_cons_of_ne _ _ _ (by simp [e5Bc7])]

/-- The two ways a BC7 encode goes. -/
theorem encodeBc7_cases (T : Tables) (q : Bool) (c : Candidate) (s : State) :
    (¬ ValidBc7 T q c ∧ encodeBc7 T q c s = { s with ph := .e0 }.raise .badCandidate) ∨
      (ValidBc7 T q c ∧ (encodeBc7 T q c s).PackEnds) := by
  by_cases hvalid : ValidBc7 T q c
  · obtain ⟨u, hu⟩ := encodeBc7_of_valid hvalid s
    exact .inr ⟨hvalid, hu ▸ packEnds_of_putAll _ rfl⟩
  · have he0 := e0Bc7_of_not_valid hvalid s
    exact .inl ⟨hvalid, (runPhases_cons_of_fault _ _ _ (by simp [he0])).trans he0⟩

/-- The registers of a BC6H encode after the fixup `E4`. -/
def afterFixup6 (T : Tables) (q : Bool) (c : Candidate) (s : State) : State :=
  e4Bc6h T (e3Bc6h T (e2Palette (e1Bc6h T q c (loadCandidate c s))))

/-- Up to the fixup nothing is packed. -/
theorem afterFixup6_frame (T : Tables) (q : Bool) (c : Candidate) (s : State) :
    let u := afterFixup6 T q c s
    u.ph = .e4 ∧ u.blk = s.blk ∧ u.cur = s.cur ∧ u.fmt = s.fmt ∧ u.mode = c.mode.toNat := by
  obtain ⟨_, _, _, h⟩ := e4Bc6h_frame T (e3Bc6h T (e2Palette (e1Bc6h T q c (loadCandidate c s))))
  simp only [afterFixup6, h]
  exact ⟨trivial, rfl, rfl, rfl, rfl⟩

/-- The endpoint registers fit the mode after the forward transform (R190, R283). -/
def State.Fits6 (T : Tables) (s : State) : Prop :=
  fits6 (T.bc6h s.mode) (sgOf s.fmt) (stored6 (T.bc6h s.mode) (epAt s.ep)) = true

theorem e5Bc6h_of_fits {T : Tables} {s : State} (h : s.Fits6 T) : e5Bc6h T s = { s with ph := .e5 } := if_pos h

theorem e5Bc6h_of_not_fits {T : Tables} {s : State} (h : ¬ s.Fits6 T) :
    e5Bc6h T s = { s with ph := .e5 }.raise .noFit := if_neg h

/-- After `E0` the first BC6H phase that can raise is `E5`. -/
theorem encodeBc6h_of_valid {T : Tables} {q : Bool} {c : Candidate} {s : State} (h : ValidBc6h T q (sgOf s.fmt) c) :
    encodeBc6h T q c s =
      runPhases [e5Bc6h T, e6Bc6h T, e6Check, State.respondEnc] (afterFixup6 T q c s) := by
  obtain ⟨hph, -⟩ := afterFixup6_frame T q c s
  rw [afterFixup6] at hph ⊢
  rw [encodeBc6h, runPhases_cons_eq (e0Bc6h_of_valid h) (by simp [loadCandidate]),
    runPhases_cons_of_ne _ _ _ (by simp [e1Bc6h]), runPhases_cons_of_ne _ _ _ (by simp [e2Palette]),
    runPhases_cons_of_ne _ _ _ (by simp [e3Bc6h, addErrors]), runPhases_cons_of_ne _ _ _ (by simp [hph])]

/-- The three ways a BC6H encode goes. -/
theorem encodeBc6h_cases (T : Tables) (q : Bool) (c : Candidate) (s : State) :
    (¬ ValidBc6h T q (sgOf s.fmt) c ∧ encodeBc6h T q c s = { s with ph := .e0 }.raise .badCandidate) ∨
      (ValidBc6h T q (sgOf s.fmt) c ∧ ¬ (afterFixup6 T q c s).Fits6 T ∧
        encodeBc6h T q c s = { afterFixup6 T q c s with ph := .e5 }.raise .noFit) ∨
      (ValidBc6h T q (sgOf s.fmt) c ∧ (afterFixup6 T q c s).Fits6 T ∧ (encodeBc6h T q c s).PackEnds) := by
  by_cases hvalid : ValidBc6h T q (sgOf s.fmt) c
  · rw [encodeBc6h_of_valid hvalid]
    by_cases hfit : (afterFixup6 T q c s).Fits6 T
    · rw [runPhases_cons_eq (e5Bc6h_of_fits hfit) (by simp)]
      exact .inr (.inr ⟨hvalid, hfit, packEnds_of_putAll _ rfl⟩)
    · rw [runPhases_cons_of_fault _ _ _ (by simp [e5Bc6h_of_not_fits hfit])]
      exact .inr (.inl ⟨hvalid, hfit, e5Bc6h_of_not_fits hfit⟩)
  · have he0 := e0Bc6h_of_not_valid hvalid
    exact .inl ⟨hvalid, (runPhases_cons_of_fault _ _ _ (by simp [he0])).trans he0⟩

/-- Settles O48: the decode phases that can raise come before `D6`, and an encode that raises does so in `E0`, in `E5`
or, with `CursorRange`, while it packs. -/
theorem faultsArePrecise : Obligations.FaultsArePrecise := by
  refine fun T q c s => ⟨?decode, ?encode⟩
  case decode =>
    rintro u (rfl | rfl) hfault
    · exact decodeBc7_precise_of_fault hfault
    · exact decodeBc6h_precise_of_fault hfault
  case encode =>
    rintro u (rfl | rfl) hfault
    · obtain ⟨-, h⟩ | ⟨-, h⟩ := encodeBc7_cases T q c s
      · rw [h]
        exact ⟨fun _ => rfl, rfl⟩
      · obtain ⟨hstatus, hrsp⟩ := h.of_fault hfault
        exact ⟨fun hne => absurd hstatus hne, hrsp⟩
    · obtain ⟨-, h⟩ | ⟨-, -, h⟩ | ⟨-, -, h⟩ := encodeBc6h_cases T q c s
      · rw [h]
        exact ⟨fun _ => rfl, rfl⟩
      · obtain ⟨-, hblk, -⟩ := afterFixup6_frame T q c s
        rw [h]
        exact ⟨fun _ => hblk, rfl⟩
      · obtain ⟨hstatus, hrsp⟩ := h.of_fault hfault
        exact ⟨fun hne => absurd hstatus hne, hrsp⟩

end Sys2Proof.Machine
end

section
/-! PROOFS. When a BC6H candidate fits (R190, R218, R307): the endpoint registers after the fixup are the quantized
endpoints, those of a region swapped where the index at its fixup pixel has its high bit set. -/

namespace Sys2Proof.Machine

/-! ## The endpoints after the fixup loop (R218) -/

theorem endOf_lt {n e : Nat} (b : Bool) (h : e < 2 * n) : endOf b e < 2 * n := by
  cases b with
  | false => exact h
  | true =>
    rw [endOf]
    split_ifs <;> omega

theorem endOf_div_two (b : Bool) (e : Nat) : endOf b e / 2 = e / 2 := by
  cases b with
  | false => rfl
  | true =>
    rw [endOf]
    split_ifs <;> omega

/-- A turn of the loop moves the endpoints of its own region alone. -/
theorem partner_eq_endOf (r e : Nat) : partner r e = endOf (decide (e / 2 = r)) e := by
  simp only [partner, endOf, decide_eq_true_eq]
  split_ifs <;> omega

theorem epAt_grid (f : Nat → Nat → Int) {e c : Nat} (he : e < 6) (hc : c < 4) : epAt (grid 6 4 f) e c = f e c :=
  cell_grid f e c 0 he hc

theorem epAt_fixRegion (T : Tables) (P ip : Nat) (ownPb : Bool) (s : State) (r : Nat) {e c : Nat} (he : e < 6)
    (hc : c < 4) :
    epAt (fixRegion T P ip ownPb s r).ep e c =
      epAt s.ep (endOf (decide (e / 2 = r) && swapsRegion T P ip s r) e) c := by
  unfold fixRegion swapsRegion
  split
  next hbit => rw [epAt_grid _ he hc, partner_eq_endOf, hbit, Bool.and_true]
  next hbit => simp [hbit]

/-- The turn for region `n` finds at its fixup pixel the index the loop started with. -/
theorem swapsRegion_foldl_fixRegion {P ip : Nat} (ownPb : Bool) {s : State} (hP : P < 3) (hs : s.shape < 64) {n : Nat}
    (hn : n ≤ P) :
    swapsRegion tables P ip ((List.range n).foldl (fixRegion tables P ip ownPb) s) n = swapsRegion tables P ip s n := by
  rw [swapsRegion, foldl_fixRegion_shape, rd_ix1_foldl_fixRegion ownPb hP hs (by omega) (fixup_lt P s.shape n hs),
    region_fixup P hP s.shape hs n hn]
  simp [swapsRegion]

/-- After the turns for the regions below `n`. -/
theorem epAt_foldl_fixRegion {P ip : Nat} (ownPb : Bool) {s : State} (hP : P < 3) (hs : s.shape < 64) {n : Nat}
    (hn : n ≤ P + 1) {e c : Nat} (he : e < 6) (hc : c < 4) :
    epAt ((List.range n).foldl (fixRegion tables P ip ownPb) s).ep e c =
      epAt s.ep (endOf (decide (e / 2 < n) && swapsRegion tables P ip s (e / 2)) e) c := by
  induction n generalizing e with
  | zero => simp
  | succ n ih =>
    rw [List.range_succ, List.foldl_append, List.foldl_cons, List.foldl_nil, epAt_fixRegion _ _ _ _ _ _ he hc,
      swapsRegion_foldl_fixRegion ownPb hP hs (by omega), ih (by omega) (endOf_lt (n := 3) _ he), endOf_div_two]
    obtain hlt | rfl | hgt := lt_trichotomy (e / 2) n
    · simp [hlt, hlt.ne, Nat.lt_succ_of_lt hlt]
    · simp
    · simp [hgt.ne', hgt.not_gt, show ¬ e / 2 < n + 1 by omega]

theorem epAt_fixRegions {P ip : Nat} (ownPb : Bool) {s : State} (hP : P < 3) (hs : s.shape < 64) {e c : Nat}
    (he : e < 2 * (P + 1)) (hc : c < 4) :
    epAt (fixRegions tables P ip ownPb s).ep e c = epAt s.ep (endOf (swapsRegion tables P ip s (e / 2)) e) c := by
  rw [fixRegions, epAt_foldl_fixRegion ownPb hP hs le_rfl (by omega) hc, decide_eq_true (by omega), Bool.true_and]

/-! ## The phases up to the fixup -/

theorem validBc6h_bounds {q sg : Bool} {c : Candidate} (h : ValidBc6h tables q sg c) :
    (tables.bc6h c.mode.toNat).P < 2 ∧ c.shape.toNat < 64 := by
  obtain ⟨⟨hlo, hhi⟩, hshape, -⟩ := h
  have hbounds := bc6h_bounds ⟨c.mode.toNat - 1, by omega⟩
  simp only [Nat.sub_add_cancel hlo] at hbounds
  obtain ⟨hP, -, hbits, -⟩ := hbounds
  exact ⟨hP, hshape.trans_le hbits⟩

/-- The registers of a BC6H encode after `E2`. -/
def quantized6 (q : Bool) (c : Candidate) (s : State) : State := e2Palette (e1Bc6h tables q c (loadCandidate c s))

@[simp] theorem quantized6_fmt (q : Bool) (c : Candidate) (s : State) : (quantized6 q c s).fmt = s.fmt := rfl
@[simp] theorem quantized6_tile (q : Bool) (c : Candidate) (s : State) : (quantized6 q c s).tile = s.tile := rfl
@[simp] theorem quantized6_mode (q : Bool) (c : Candidate) (s : State) :
    (quantized6 q c s).mode = c.mode.toNat := rfl
@[simp] theorem quantized6_shape (q : Bool) (c : Candidate) (s : State) :
    (quantized6 q c s).shape = c.shape.toNat := rfl

theorem epAt_quantized6 (q : Bool) (c : Candidate) (s : State) {e ch : Nat} (he : e < 6) (hch : ch < 4) :
    epAt (quantized6 q c s).ep e ch = refQ6 q (sgOf s.fmt) c e ch :=
  epAt_grid _ he hch

/-- A palette entry depends on the two endpoints of its region alone. -/
theorem pal6_congr (T : Tables) (d : Desc6) (sg : Bool) {p q : Nat → Nat → Int} {r c : Nat} (j : Nat)
    (h : ∀ e < 2 * (r + 1), p e c = q e c) : pal6 T d sg p r j c = pal6 T d sg q r j c := by
  rw [pal6, pal6, h (2 * r) (by omega), h (2 * r + 1) (by omega)]

/-- The search of `E3` is that of the reference (R216). -/
theorem search6_quantized6 {q : Bool} {c : Candidate} {s : State} (htile : s.tile = c.tile)
    (hvalid : ValidBc6h tables q (sgOf s.fmt) c) {i : Nat} (hi : i < 16) :
    search6 tables (quantized6 q c s) i = refSearch6 q (sgOf s.fmt) c i := by
  obtain ⟨hP, hshape⟩ := validBc6h_bounds hvalid
  have hr := region_lt (tables.bc6h c.mode.toNat).P c.shape.toNat i (by omega) hshape hi
  simp only [search6, refSearch6, quantized6_fmt, quantized6_tile, quantized6_mode, quantized6_shape, htile]
  refine congrArg (nearest · _) (funext fun j => dist_congr _ _ _ _ _ fun ch hch => ⟨rfl, ?_⟩)
  have hch4 : ch < 4 := by fin_cases hch <;> decide
  exact pal6_congr _ _ _ _ fun e he => epAt_quantized6 q c s (by omega) hch4

/-- The registers the fixup starts from. -/
def indexed6 (q : Bool) (c : Candidate) (s : State) : State := { e3Bc6h tables (quantized6 q c s) with ph := .e4 }

theorem afterFixup6_eq_fixRegions (q : Bool) (c : Candidate) (s : State) :
    afterFixup6 tables q c s =
      fixRegions tables (tables.bc6h c.mode.toNat).P (tables.bc6h c.mode.toNat).IP false (indexed6 q c s) := rfl

theorem indexed6_shape (q : Bool) (c : Candidate) (s : State) : (indexed6 q c s).shape = c.shape.toNat := rfl

theorem indexed6_ix1 (q : Bool) (c : Candidate) (s : State) :
    (indexed6 q c s).ix1 = tab 16 fun i => (search6 tables (quantized6 q c s) i).1 := rfl

theorem rd_ix1_indexed6 {q : Bool} {c : Candidate} {s : State} (htile : s.tile = c.tile)
    (hvalid : ValidBc6h tables q (sgOf s.fmt) c) {i : Nat} (hi : i < 16) :
    rd (indexed6 q c s).ix1 i 0 = (refSearch6 q (sgOf s.fmt) c i).1 := by
  rw [indexed6_ix1, rd_tab _ i 0 hi, search6_quantized6 htile hvalid hi]

theorem swapsRegion_indexed6 {q : Bool} {c : Candidate} {s : State} (htile : s.tile = c.tile)
    (hvalid : ValidBc6h tables q (sgOf s.fmt) c) (r : Nat) :
    swapsRegion tables (tables.bc6h c.mode.toNat).P (tables.bc6h c.mode.toNat).IP (indexed6 q c s) r =
      refSwap6 q (sgOf s.fmt) c r := by
  obtain ⟨-, hshape⟩ := validBc6h_bounds hvalid
  rw [swapsRegion, indexed6_shape, rd_ix1_indexed6 htile hvalid (fixup_lt _ _ r hshape), refSwap6]

/-- The endpoint registers after the fixup are those of the reference (R218). -/
theorem epAt_afterFixup6 {q : Bool} {c : Candidate} {s : State} (htile : s.tile = c.tile)
    (hvalid : ValidBc6h tables q (sgOf s.fmt) c) {e ch : Nat} (he : e < (tables.bc6h c.mode.toNat).ne) (hch : ch < 4) :
    epAt (afterFixup6 tables q c s).ep e ch =
      refQ6 q (sgOf s.fmt) c (endOf (refSwap6 q (sgOf s.fmt) c (e / 2)) e) ch := by
  obtain ⟨hP, hshape⟩ := validBc6h_bounds hvalid
  rw [afterFixup6_eq_fixRegions, epAt_fixRegions (s := indexed6 q c s) false (by omega) hshape he hch,
    swapsRegion_indexed6 htile hvalid]
  rw [Desc6.ne] at he
  exact epAt_quantized6 q c s (endOf_lt (n := 3) _ (by omega)) hch

/-! ## The fit check -/

/-- The fit check looks at the mode's own endpoints alone. -/
theorem fits6_stored6_congr {d : Desc6} (sg : Bool) {p q : Nat → Nat → Int}
    (h : ∀ k < d.ne, ∀ c < 3, p k c = q k c) : fits6 d sg (stored6 d p) = fits6 d sg (stored6 d q) := by
  have hne : 0 < d.ne := by simp [Desc6.ne]
  have hstored : ∀ k < d.ne, ∀ c < 3, stored6 d p k c = stored6 d q k c := fun k hk c hc => by
    rw [stored6, stored6, h k hk c hc, h 0 hne c hc]
  rw [Bool.eq_iff_iff]
  simp only [fits6, List.all_eq_true, List.mem_range]
  refine forall₂_congr fun k hk => forall₂_congr fun c hc => ?_
  rw [hstored k hk c hc, hstored 0 hne c hc]

theorem fits6_afterFixup6_iff {q : Bool} {c : Candidate} {s : State} (htile : s.tile = c.tile)
    (hvalid : ValidBc6h tables q (sgOf s.fmt) c) :
    (afterFixup6 tables q c s).Fits6 tables ↔ FitsBc6h q (sgOf s.fmt) c := by
  obtain ⟨-, -, -, hfmt, hmode⟩ := afterFixup6_frame tables q c s
  rw [State.Fits6, hfmt, hmode, fits6_stored6_congr _ fun k hk ch hch => epAt_afterFixup6 htile hvalid hk (by omega)]
  exact Iff.rfl

/-! ## `NoFit` -/

theorem encodeBc7_status_ne_noFit (T : Tables) (q : Bool) (c : Candidate) (s : State) :
    (encodeBc7 T q c s).status ≠ .noFit := by
  obtain ⟨-, h⟩ | ⟨-, h⟩ := encodeBc7_cases T q c s
  · simp [h]
  · exact h.status_ne_noFit

theorem encodeBc6h_status_eq_noFit_iff {q : Bool} {c : Candidate} {s : State} (htile : s.tile = c.tile) :
    (encodeBc6h tables q c s).status = .noFit ↔
      ValidBc6h tables q (sgOf s.fmt) c ∧ ¬ FitsBc6h q (sgOf s.fmt) c := by
  obtain ⟨hvalid, h⟩ | ⟨hvalid, hfit, h⟩ | ⟨hvalid, hfit, h⟩ := encodeBc6h_cases tables q c s
  · simp [h, hvalid]
  · rw [fits6_afterFixup6_iff htile hvalid] at hfit
    simp only [h, State.raise_status, true_iff]
    exact ⟨hvalid, hfit⟩
  · rw [fits6_afterFixup6_iff htile hvalid] at hfit
    simp [h.status_ne_noFit, hfit]

/-- `NoFit` is raised with nothing packed. -/
theorem encodeBc6h_of_noFit {T : Tables} {q : Bool} {c : Candidate} {s : State}
    (hstatus : (encodeBc6h T q c s).status = .noFit) :
    let t := encodeBc6h T q c s
    t.ph = .fault ∧ t.rsp = some (Response.statusOnly .noFit) ∧ t.blk = s.blk ∧ t.cur = s.cur := by
  obtain ⟨-, h⟩ | ⟨-, -, h⟩ | ⟨-, -, h⟩ := encodeBc6h_cases T q c s
  · simp [h] at hstatus
  · obtain ⟨-, hblk, hcur, -⟩ := afterFixup6_frame T q c s
    simp only [h]
    exact ⟨rfl, rfl, hblk, hcur⟩
  · exact absurd hstatus h.status_ne_noFit

/-- Settles O39: BC7 has no fit check; in BC6H `E5` raises `NoFit` on the registers the fixup left, which are the
reference's endpoints, and leaves the block and the cursor as the command was accepted with. -/
theorem noFitExactlyWhereAFieldDoesNotFit : Obligations.NoFitExactlyWhereAFieldDoesNotFit := by
  intro q fmt c s
  by_cases hfmt : fmt = 0
  · subst hfmt
    have hne := encodeBc7_status_ne_noFit tables q c (s.acceptEnc (encOp q) 0 c)
    exact ⟨_, exec_encInstr_bc7 q c s, ⟨fun h => absurd h hne, fun h => absurd rfl h.1⟩, fun h => absurd h hne⟩
  · refine ⟨_, exec_encInstr_bc6h q fmt c s hfmt, ?iff, fun h => encodeBc6h_of_noFit h⟩
    rw [encodeBc6h_status_eq_noFit_iff rfl, State.acceptEnc_fmt, sgOf_fmt]
    simp only [ne_eq, hfmt, not_false_eq_true, true_and]

end Sys2Proof.Machine
end

section
/-! PROOFS. Writing fields and reading them back (R141, R142): one field, and runs of fields. -/

-- Elaborated in order: the stack of each thread that waits for another counts against the check's memory limit.
set_option Elab.async false

namespace Sys2Proof

/-! ## One field -/

/-- Every bit after a field write: the field has the value's bits, all others are kept. -/
theorem getLsbD_wrbits (B : Block) (off w v n : Nat) :
    (wrbits B off w v).getLsbD n =
      if off ≤ n ∧ n < off + w then decide (n < 128) && v.testBit (n - off) else B.getLsbD n := by
  induction w with
  | zero => rw [wrbits_zero, if_neg (by omega)]
  | succ w ih =>
    rw [wrbits_succ, getLsbD_putBit, ih]
    by_cases hn : n = off + w
    · rw [if_pos hn, if_pos (by omega), hn, Nat.add_sub_cancel_left]
    · rw [if_neg hn]
      exact if_congr (by omega) rfl rfl

theorem rdbits_congr {A B : Block} {off w : Nat} (h : ∀ n, off ≤ n → n < off + w → A.getLsbD n = B.getLsbD n) :
    rdbits A off w = rdbits B off w := by
  refine Nat.eq_of_testBit_eq fun k => ?_
  rw [testBit_rdbits, testBit_rdbits]
  by_cases hk : k < w
  · rw [h (off + k) (by omega) (by omega)]
  · simp [hk]

/-- A field just written reads its value's low bits. -/
theorem rdbits_wrbits (B : Block) {off w : Nat} (v : Nat) (h : off + w ≤ 128) :
    rdbits (wrbits B off w v) off w = v % 2 ^ w := by
  refine Nat.eq_of_testBit_eq fun k => ?_
  rw [testBit_rdbits, Nat.testBit_mod_two_pow, getLsbD_wrbits]
  by_cases hk : k < w
  · have h128 : off + k < 128 := by omega
    simp [hk, h128]
  · simp [hk]

/-- Settles O10: a field has exactly the block bits from its first one on, which also says that two adjacent fields make
one. -/
theorem readFieldIsLittleEndian : Obligations.ReadFieldIsLittleEndian := by
  refine fun B off w => ⟨rdbits_lt B off w, fun k hk => ?_, fun v => Nat.eq_of_testBit_eq fun k => ?_⟩
  · rw [testBit_rdbits, decide_eq_true hk, Bool.true_and]
  · rw [Nat.testBit_or, Nat.testBit_shiftLeft, testBit_rdbits, testBit_rdbits, testBit_rdbits]
    obtain hk | hk := Nat.lt_or_ge k w
    · simp [hk, hk.not_ge, Nat.lt_add_right v hk]
    · have hsub : k - w < v ↔ k < w + v := by omega
      have hadd : off + w + (k - w) = off + k := by omega
      simp [hk, hk.not_gt, hsub, hadd]

/-- Settles O11. -/
theorem writeFieldChangesItsBitsOnly : Obligations.WriteFieldChangesItsBitsOnly := fun B off w v h =>
  ⟨rdbits_wrbits B v h, fun n hn => by rw [getLsbD_wrbits, if_neg (by omega)]⟩

/-! ## Runs of fields -/

/-- The first field of a run just written. -/
theorem rdbits_writeAll_cons {w v off : Nat} (fs : List (Nat × Nat)) (B : Block) (h : off + w ≤ 128) :
    rdbits (writeAll ((w, v) :: fs) B off) off w = v % 2 ^ w := by
  rw [writeAll, rdbits_congr fun n _ hn => getLsbD_writeAll_below fs _ _ _ hn, rdbits_wrbits B v h]

/-- Reading back a run of fields gives the low bits of the values written. -/
theorem readAll_writeAll (fs : List (Nat × Nat)) (B : Block) (off : Nat)
    (h : off + totalWidth (fs.map Prod.fst) ≤ 128) :
    readAll (writeAll fs B off) (fs.map Prod.fst) off = fs.map fun p => p.2 % 2 ^ p.1 := by
  induction fs generalizing B off with
  | nil => rfl
  | cons p fs ih =>
    obtain ⟨w, v⟩ := p
    simp only [List.map_cons, totalWidth] at h
    rw [List.map_cons, List.map_cons, readAll_cons, rdbits_writeAll_cons fs B (by omega), writeAll, ih _ _ (by omega)]

/-- Writing the fields a block reads as makes its bits, up to the end of the run. -/
theorem getLsbD_writeAll_of_readAll {fs : List (Nat × Nat)} {A B : Block} {off : Nat}
    (hread : readAll B (fs.map Prod.fst) off = fs.map Prod.snd) (hlow : ∀ n < off, A.getLsbD n = B.getLsbD n) :
    ∀ n < off + totalWidth (fs.map Prod.fst), (writeAll fs A off).getLsbD n = B.getLsbD n := by
  induction fs generalizing A off with
  | nil => exact hlow
  | cons p fs ih =>
    obtain ⟨w, v⟩ := p
    simp only [List.map_cons, readAll_cons, List.cons.injEq] at hread
    obtain ⟨rfl, hrest⟩ := hread
    simp only [List.map_cons, totalWidth, ← Nat.add_assoc]
    refine ih hrest fun n hn => ?_
    rw [getLsbD_wrbits, testBit_rdbits]
    split
    next hin =>
      have hsub : n - off < w := by omega
      have hadd : off + (n - off) = n := by omega
      rw [decide_eq_true hsub, Bool.true_and, hadd]
      by_cases h128 : n < 128
      · simp [h128]
      · simp [BitVec.getLsbD_of_ge B n (by omega)]
    next hout => exact hlow n (by omega)

/-- Fields that fill the block determine it. -/
theorem writeAll_eq_of_readAll {fs : List (Nat × Nat)} {B : Block} (htotal : totalWidth (fs.map Prod.fst) = 128)
    (hread : readAll B (fs.map Prod.fst) 0 = fs.map Prod.snd) : writeAll fs 0 0 = B :=
  BitVec.eq_of_getLsbD_eq fun n hn => getLsbD_writeAll_of_readAll hread (by simp) n (by omega)

/-- Entry `i` of a run stands behind the fields before it. -/
theorem getD_readAll (B : Block) (ws : List Nat) (off i : Nat) :
    (readAll B ws off).getD i 0 = rdbits B (off + totalWidth (ws.take i)) (ws.getD i 0) := by
  induction ws generalizing off i with
  | nil => simp [readAll, rdbits_zero]
  | cons w ws ih =>
    cases i with
    | zero => rfl
    | succ i =>
      rw [readAll_cons, List.getD_cons_succ, ih, List.take_succ_cons, totalWidth, List.getD_cons_succ, Nat.add_assoc]

theorem getD_readAll_lt (B : Block) (ws : List Nat) (off i : Nat) :
    (readAll B ws off).getD i 0 < 2 ^ ws.getD i 0 := by
  rw [getD_readAll]
  exact rdbits_lt _ _ _

theorem getD_map_range {α : Type} (f : Nat → α) {n i : Nat} (d : α) (hi : i < n) :
    ((List.range n).map f).getD i d = f i := by
  simp [hi]

/-- The same of a run whose widths are tabulated. -/
theorem getD_readAll_map_range (B : Block) (w : Nat → Nat) (off : Nat) {n i : Nat} (hi : i < n) :
    (readAll B ((List.range n).map w) off).getD i 0 =
      rdbits B (off + totalWidth ((List.range i).map w)) (w i) := by
  rw [getD_readAll, ← List.map_take, List.take_range, Nat.min_eq_left hi.le, getD_map_range _ _ hi]

/-- A list is the tabulation of its entries. -/
theorem map_range_getD {α : Type} (l : List α) (d : α) {n : Nat} (hn : l.length = n) :
    (List.range n).map (fun i => l.getD i d) = l := by
  subst hn
  refine List.ext_getElem (by simp) fun i _ hi => ?_
  rw [List.getElem_map, List.getElem_range, List.getD_eq_getElem _ _ hi]

/-- A list of `n` rows of `k` entries, row after row. -/
theorem flatMap_range_map {α : Type} (g : Nat → α) (n k : Nat) :
    ((List.range n).flatMap fun c => (List.range k).map fun e => g (c * k + e)) = (List.range (n * k)).map g := by
  induction n with
  | zero => simp
  | succ n ih => simp [List.range_succ, List.flatMap_append, ih, Nat.add_mul, List.range_add, Function.comp_def]

/-- Entry `e` of row `c`. -/
theorem getD_flatMap_range_map {α : Type} (g : Nat → Nat → α) {n k c e : Nat} (d : α) (hc : c < n) (he : e < k) :
    ((List.range n).flatMap fun c => (List.range k).map (g c)).getD (c * k + e) d = g c e := by
  have hrow (c : Nat) : (List.range k).map (g c) =
      (List.range k).map fun e => g ((c * k + e) / k) ((c * k + e) % k) :=
    List.map_congr_left fun e he => by
      have he := List.mem_range.mp he
      rw [Nat.add_comm, Nat.add_mul_div_right _ _ (by omega), Nat.add_mul_mod_self_right, Nat.div_eq_of_lt he,
        Nat.mod_eq_of_lt he, Nat.zero_add]
  have hlt : c * k + e < n * k := by
    have := Nat.mul_le_mul_right k (Nat.succ_le_of_lt hc)
    rw [Nat.succ_mul] at this
    omega
  simp only [hrow]
  rw [flatMap_range_map fun i => g (i / k) (i % k), getD_map_range _ _ hlt, Nat.add_comm,
    Nat.add_mul_div_right _ _ (by omega), Nat.add_mul_mod_self_right, Nat.div_eq_of_lt he, Nat.mod_eq_of_lt he,
    Nat.zero_add]

end Sys2Proof
end

section
/-! PROOFS. BC7 blocks (R82 to R95): the fields of a block are the fields it is written from, and where they stand. -/

-- Elaborated in order: the stack of each thread that waits for another counts against the check's memory limit.
set_option Elab.async false

namespace Sys2Proof

open Machine

/-! ## The fields in block order -/

theorem map_epOrder {α : Type} (d : Desc7) (g : Nat × Nat → α) :
    d.epOrder.map g = (List.range d.nch).flatMap fun c => (List.range d.ne).map fun e => g (e, c) := by
  simp [Desc7.epOrder, List.map_flatMap, Function.comp_def]

theorem length_epOrder (d : Desc7) : d.epOrder.length = d.nch * d.ne := by
  simp [Desc7.epOrder, List.length_flatMap]

/-- Entry `c * ne + e` of a list made along the endpoint fields, whatever follows it. -/
theorem getD_map_epOrder_append {α : Type} (d : Desc7) (g : Nat × Nat → α) (l : List α) (x : α) {e c : Nat}
    (he : e < d.ne) (hc : c < d.nch) : (d.epOrder.map g ++ l).getD (c * d.ne + e) x = g (e, c) := by
  have hlt : c * d.ne + e < (d.epOrder.map g).length := by
    have := Nat.mul_le_mul_right d.ne (Nat.succ_le_of_lt hc)
    rw [Nat.succ_mul] at this
    rw [List.length_map, length_epOrder]
    omega
  rw [List.getD_append _ _ _ _ hlt, map_epOrder]
  exact getD_flatMap_range_map (fun c e => g (e, c)) x hc he

/-- Entry `nch * ne + k`, behind the endpoint fields. -/
theorem getD_map_epOrder_append_right {α : Type} (d : Desc7) (g : Nat × Nat → α) (l : List α) (x : α) (k : Nat) :
    (d.epOrder.map g ++ l).getD (d.nch * d.ne + k) x = l.getD k x := by
  rw [List.getD_append_right _ _ _ _ (by rw [List.length_map, length_epOrder]; omega), List.length_map, length_epOrder,
    Nat.add_sub_cancel_left]

/-- Endpoint fields and p-bits, in block order. -/
def Bc7Fields.bodyValues (d : Desc7) (f : Bc7Fields) : List Nat :=
  d.epOrder.map (fun p => cell f.ep p.1 p.2 0) ++ (List.range d.NP).map fun k => rd f.pb k 0

/-- Index entries, in block order. -/
def Bc7Fields.indexValues (d : Desc7) (f : Bc7Fields) : List Nat :=
  (List.range 16).map (fun i => rd f.ix1 i 0) ++
    if 0 < d.IP2 then (List.range 16).map fun i => rd f.ix2 i 0 else []

theorem map_fst_fields7 (T : Tables) (m : Nat) (f : Bc7Fields) :
    (f.fields T m).map Prod.fst = [m + 1] ++ ([(T.bc7 m).PB, (T.bc7 m).RB, (T.bc7 m).IB] ++
      ((T.bc7 m).bodyWidths ++ T.idxWidths7 (T.bc7 m) f.shape)) := by
  have hrep : (List.range (T.bc7 m).NP).map (fun _ => 1) = List.replicate (T.bc7 m).NP 1 := by
    simp [List.map_const']
  simp only [Bc7Fields.fields, Desc7.bodyWidths, Tables.idxWidths7, List.map_append, List.map_map, List.map_cons,
    List.map_nil, apply_ite (List.map Prod.fst), Function.comp_def, hrep, List.append_assoc, List.cons_append,
    List.nil_append]

theorem map_snd_fields7 (T : Tables) (m : Nat) (f : Bc7Fields) :
    (f.fields T m).map Prod.snd = [2 ^ m] ++ ([f.shape, f.rot, f.idxm] ++
      (f.bodyValues (T.bc7 m) ++ f.indexValues (T.bc7 m))) := by
  simp only [Bc7Fields.fields, Bc7Fields.bodyValues, Bc7Fields.indexValues, List.map_append, List.map_map,
    List.map_cons, List.map_nil, apply_ite (List.map Prod.snd), Function.comp_def, List.append_assoc,
    List.cons_append, List.nil_append]

/-- A block of mode `m`, read field by field. -/
theorem readAll_map_fst_fields7 (T : Tables) (m : Nat) (f : Bc7Fields) (B : Block) :
    readAll B ((f.fields T m).map Prod.fst) 0 = [rdbits B 0 (m + 1)] ++
      (readAll B [(T.bc7 m).PB, (T.bc7 m).RB, (T.bc7 m).IB] (m + 1) ++
        (readAll B (T.bc7 m).bodyWidths (bodyStart7 (T.bc7 m) m) ++
          readAll B (T.idxWidths7 (T.bc7 m) f.shape) (indexStart7 (T.bc7 m) m))) := by
  have hhead : 0 + totalWidth [m + 1] = m + 1 := by simp [totalWidth]
  have hbody : m + 1 + totalWidth [(T.bc7 m).PB, (T.bc7 m).RB, (T.bc7 m).IB] = bodyStart7 (T.bc7 m) m := by
    simp only [totalWidth, bodyStart7]
    omega
  rw [map_fst_fields7, readAll_append, readAll_append, readAll_append, hhead, hbody, ← indexStart7]
  rfl

/-- What `readAll_map_fst_fields7` reads for given values, part by part. -/
theorem readAll_fields7_eq_iff (T : Tables) (m : Nat) (f : Bc7Fields) (B : Block) :
    readAll B ((f.fields T m).map Prod.fst) 0 = (f.fields T m).map Prod.snd ↔
      rdbits B 0 (m + 1) = 2 ^ m ∧
      readAll B [(T.bc7 m).PB, (T.bc7 m).RB, (T.bc7 m).IB] (m + 1) = [f.shape, f.rot, f.idxm] ∧
      readAll B (T.bc7 m).bodyWidths (bodyStart7 (T.bc7 m) m) = f.bodyValues (T.bc7 m) ∧
      readAll B (T.idxWidths7 (T.bc7 m) f.shape) (indexStart7 (T.bc7 m) m) = f.indexValues (T.bc7 m) := by
  have hbody : (readAll B (T.bc7 m).bodyWidths (bodyStart7 (T.bc7 m) m)).length = (f.bodyValues (T.bc7 m)).length := by
    simp [readAll_length, Desc7.bodyWidths, Bc7Fields.bodyValues]
  have hhead : (readAll B [(T.bc7 m).PB, (T.bc7 m).RB, (T.bc7 m).IB] (m + 1)).length =
      [f.shape, f.rot, f.idxm].length := rfl
  rw [readAll_map_fst_fields7, map_snd_fields7, List.singleton_append, List.singleton_append, List.cons.injEq,
    List.append_eq_append_iff_of_size_eq_left hhead, List.append_eq_append_iff_of_size_eq_left hbody]

/-! ## What `parse7` reads -/

/-- What fits the arrays of `Bc7Fields`. -/
theorem bc7_array_bounds : ∀ m < 8, (tables.bc7 m).ne ≤ 6 ∧ (tables.bc7 m).nch ≤ 4 ∧ (tables.bc7 m).NP ≤ 6 := by decide

theorem mem_epOrder {d : Desc7} {p : Nat × Nat} (h : p ∈ d.epOrder) : p.1 < d.ne ∧ p.2 < d.nch := by
  simp only [Desc7.epOrder, List.mem_flatMap, List.mem_map, List.mem_range] at h
  obtain ⟨c, hc, e, he, rfl⟩ := h
  exact ⟨he, hc⟩

theorem cell_parse7_ep (m : Nat) (B : Block) {e c : Nat} (he : e < 6) (hc : c < 4) :
    cell (parse7 tables m B).ep e c 0 = if e < (tables.bc7 m).ne ∧ c < (tables.bc7 m).nch then
      (readAll B (tables.bc7 m).bodyWidths (bodyStart7 (tables.bc7 m) m)).getD (c * (tables.bc7 m).ne + e) 0 else 0 := by
  rw [parse7, cell_grid _ _ _ _ he hc]

theorem rd_parse7_pb (m : Nat) (B : Block) {k : Nat} (hk : k < 6) :
    rd (parse7 tables m B).pb k 0 = if k < (tables.bc7 m).NP then
      (readAll B (tables.bc7 m).bodyWidths (bodyStart7 (tables.bc7 m) m)).getD
        ((tables.bc7 m).nch * (tables.bc7 m).ne + k) 0 else 0 := by
  rw [parse7, rd_tab _ _ _ hk]

theorem rd_parse7_ix1 (m : Nat) (B : Block) {i : Nat} (hi : i < 16) :
    rd (parse7 tables m B).ix1 i 0 = (readAll B (tables.idxWidths7 (tables.bc7 m) (parse7 tables m B).shape)
      (indexStart7 (tables.bc7 m) m)).getD i 0 := by
  rw [parse7, rd_tab _ _ _ hi]

theorem rd_parse7_ix2 (m : Nat) (B : Block) {i : Nat} (hi : i < 16) :
    rd (parse7 tables m B).ix2 i 0 = if 0 < (tables.bc7 m).IP2 then
      (readAll B (tables.idxWidths7 (tables.bc7 m) (parse7 tables m B).shape)
        (indexStart7 (tables.bc7 m) m)).getD (16 + i) 0 else 0 := by
  rw [parse7, rd_tab _ _ _ hi]

theorem bodyValues_parse7 {m : Nat} (hm : m < 8) (B : Block) :
    (parse7 tables m B).bodyValues (tables.bc7 m) =
      readAll B (tables.bc7 m).bodyWidths (bodyStart7 (tables.bc7 m) m) := by
  obtain ⟨hne, hnch, hNP⟩ := bc7_array_bounds m hm
  set d := tables.bc7 m
  set v := readAll B d.bodyWidths (bodyStart7 d m) with hv
  have hep : d.epOrder.map (fun p => cell (parse7 tables m B).ep p.1 p.2 0) =
      (List.range (d.nch * d.ne)).map fun i => v.getD i 0 := by
    rw [← flatMap_range_map, ← map_epOrder d fun p => v.getD (p.2 * d.ne + p.1) 0]
    refine List.map_congr_left fun p hp => ?_
    obtain ⟨he, hc⟩ := mem_epOrder hp
    rw [cell_parse7_ep m B (by omega) (by omega), if_pos ⟨he, hc⟩]
  have hpb : (List.range d.NP).map (fun k => rd (parse7 tables m B).pb k 0) =
      (List.range d.NP).map fun k => v.getD (d.nch * d.ne + k) 0 :=
    List.map_congr_left fun k hk => by
      have hk := List.mem_range.mp hk
      rw [rd_parse7_pb m B (by omega), if_pos hk]
  have hlen : v.length = d.nch * d.ne + d.NP := by
    simp [hv, readAll_length, Desc7.bodyWidths, length_epOrder]
  rw [Bc7Fields.bodyValues, hep, hpb]
  conv_rhs => rw [← map_range_getD v 0 hlen, List.range_add, List.map_append, List.map_map]
  rfl

theorem indexValues_parse7 (m : Nat) (B : Block) :
    (parse7 tables m B).indexValues (tables.bc7 m) =
      readAll B (tables.idxWidths7 (tables.bc7 m) (parse7 tables m B).shape) (indexStart7 (tables.bc7 m) m) := by
  set x := readAll B (tables.idxWidths7 (tables.bc7 m) (parse7 tables m B).shape) (indexStart7 (tables.bc7 m) m) with hx
  have h1 : (List.range 16).map (fun i => rd (parse7 tables m B).ix1 i 0) = (List.range 16).map fun i => x.getD i 0 :=
    List.map_congr_left fun i hi => rd_parse7_ix1 m B (List.mem_range.mp hi)
  rw [Bc7Fields.indexValues, h1]
  by_cases hdual : 0 < (tables.bc7 m).IP2
  · have h2 : (List.range 16).map (fun i => rd (parse7 tables m B).ix2 i 0) =
        (List.range 16).map fun i => x.getD (16 + i) 0 :=
      List.map_congr_left fun i hi => by rw [rd_parse7_ix2 m B (List.mem_range.mp hi), if_pos hdual]
    have hlen : x.length = 16 + 16 := by simp [hx, readAll_length, Tables.idxWidths7, hdual]
    rw [if_pos hdual, h2]
    conv_rhs => rw [← map_range_getD x 0 hlen, List.range_add, List.map_append, List.map_map]
    rfl
  · have hlen : x.length = 16 := by simp [hx, readAll_length, Tables.idxWidths7, hdual]
    rw [if_neg hdual, List.append_nil, map_range_getD x 0 hlen]

/-! ## Decoding what was encoded -/

theorem eq_zero_of_lt_two_pow_zero {x w : Nat} (h : x < 2 ^ w) (hw : w = 0) : x = 0 := by
  subst hw
  omega

theorem Desc7.epWidth_eq_zero {d : Desc7} {e c : Nat} (hc4 : c < 4) (h : ¬ (e < d.ne ∧ c < d.nch)) :
    d.epWidth e c = 0 := by
  simp only [Desc7.nch] at h
  simp only [Desc7.epWidth]
  split_ifs at h ⊢ <;> omega

/-- A block whose fields read as those of `f` is parsed to `f`. -/
theorem parse7_eq_of_readAll {m : Nat} {f : Bc7Fields} (hf : f.WF m) {B : Block}
    (h : readAll B ((f.fields tables m).map Prod.fst) 0 = (f.fields tables m).map Prod.snd) :
    parse7 tables m B = f := by
  obtain ⟨-, hhead, hbody, hidx⟩ := (readAll_fields7_eq_iff tables m f B).mp h
  obtain ⟨-, -, -, hep, hpb, -, hix2⟩ := hf
  obtain ⟨shape, rot, idxm, ep, pb, ix1, ix2⟩ := f
  simp only [parse7, hhead, hbody, Bc7Fields.mk.injEq, List.getD_cons_zero, List.getD_cons_succ, true_and]
  simp only [hidx]
  refine ⟨?ep, ?pb, ?ix1, ?ix2⟩
  case ep =>
    refine (grid_congr fun e he c hc => ?_).trans (grid_cell ep 0)
    split
    next hin => exact getD_map_epOrder_append _ _ _ _ hin.1 hin.2
    next hout => exact (eq_zero_of_lt_two_pow_zero (hep e he c hc) (Desc7.epWidth_eq_zero hc hout)).symm
  case pb =>
    refine (tab_congr fun k hk => ?_).trans (tab_rd pb 0)
    split
    next hin => rw [Bc7Fields.bodyValues, getD_map_epOrder_append_right, getD_map_range _ _ hin]
    next hout =>
      have hlt := hpb k hk
      rw [if_neg hout] at hlt
      exact (Nat.lt_one_iff.mp hlt).symm
  case ix1 =>
    refine (tab_congr fun i hi => ?_).trans (tab_rd ix1 0)
    rw [Bc7Fields.indexValues, List.getD_append _ _ _ _ (by simpa using hi), getD_map_range _ _ hi]
  case ix2 =>
    refine (tab_congr fun i hi => ?_).trans (tab_rd ix2 0)
    split
    next hdual =>
      rw [Bc7Fields.indexValues, if_pos hdual, List.getD_append_right _ _ _ _ (by simp), List.length_map,
        List.length_range, Nat.add_sub_cancel_left, getD_map_range _ _ hi]
    next hsingle =>
      refine (eq_zero_of_lt_two_pow_zero (hix2 i hi) ?_).symm
      rw [Desc7.idx2Width]
      split <;> omega

theorem totalWidth_fields7 {m : Nat} (hm : m < 8) {f : Bc7Fields} (hs : f.shape < 2 ^ (tables.bc7 m).PB) :
    totalWidth ((f.fields tables m).map Prod.fst) = 128 := by
  obtain ⟨hP, hPB, hip⟩ := bc7_index_bounds m hm
  have hidx := totalWidth_idxWidths7 (tables.bc7 m) hP (hs.trans_le hPB) hip
  have hlens : m + 1 + (totalWidth [(tables.bc7 m).PB, (tables.bc7 m).RB, (tables.bc7 m).IB] +
      (totalWidth (tables.bc7 m).bodyWidths + ((16 * (tables.bc7 m).IP - ((tables.bc7 m).P + 1)) +
        (if 0 < (tables.bc7 m).IP2 then 16 * (tables.bc7 m).IP2 - 1 else 0)))) = 128 := by
    clear hidx hs hP hPB hip
    revert m
    decide
  rw [map_fst_fields7, totalWidth_append, totalWidth_append, totalWidth_append, hidx]
  exact hlens

/-- Every field fits the width it is written with. -/
theorem fields7_fit {m : Nat} (hm : m < 8) {f : Bc7Fields} (hf : f.WF m) :
    ∀ p ∈ f.fields tables m, p.2 < 2 ^ p.1 := by
  obtain ⟨hne, hnch, hNP⟩ := bc7_array_bounds m hm
  obtain ⟨hshape, hrot, hidxm, hep, hpb, hix1, hix2⟩ := hf
  simp only [Bc7Fields.fields, List.cons_append, List.nil_append, List.forall_mem_cons, List.forall_mem_append,
    List.forall_mem_map]
  refine ⟨Nat.pow_lt_pow_right (by decide) (Nat.lt_succ_self m), hshape, hrot, hidxm, ⟨⟨fun p hp => ?ep, fun k hk => ?pb⟩,
    fun i hi => hix1 i (List.mem_range.mp hi)⟩, ?ix2⟩
  case ep =>
    obtain ⟨he, hc⟩ := mem_epOrder hp
    exact hep _ (by omega) _ (by omega)
  case pb =>
    have hk := List.mem_range.mp hk
    simpa [hk] using hpb k (by omega)
  case ix2 =>
    split
    · simp only [List.forall_mem_map]
      exact fun i hi => hix2 i (List.mem_range.mp hi)
    · simp

theorem readAll_encode7 {m : Nat} (hm : m < 8) {f : Bc7Fields} (hf : f.WF m) :
    readAll (encode7 m f) ((f.fields tables m).map Prod.fst) 0 = (f.fields tables m).map Prod.snd := by
  rw [encode7, readAll_writeAll _ _ _ (by rw [totalWidth_fields7 hm hf.1])]
  exact List.map_congr_left fun p hp => Nat.mod_eq_of_lt (fields7_fit hm hf p hp)

theorem parse7_encode7 {m : Nat} (hm : m < 8) {f : Bc7Fields} (hf : f.WF m) : parse7 tables m (encode7 m f) = f :=
  parse7_eq_of_readAll hf (readAll_encode7 hm hf)

/-- An encoded block carries its mode's selector, whatever its fields. -/
theorem selector7_encode7 (m : Fin 8) (f : Bc7Fields) : selector7 (encode7 m f) = some m.val := by
  have hsel : rdbits (encode7 m f) 0 (m + 1) = 2 ^ m.val :=
    (rdbits_writeAll_cons _ 0 (by omega)).trans (Nat.mod_eq_of_lt (Nat.pow_lt_pow_right (by decide) (Nat.lt_succ_self _)))
  rw [selector7_eq_some_iff]
  simpa using (rdbits_eq_two_pow_iff _ 0 m).mp hsel

/-- Settles O2: the block holds each field in as many bits as it needs, so reading gives the fields back; and its first
bits are the mode's selector. -/
theorem bc7DecodeOfEncode : Obligations.Bc7DecodeOfEncode := by
  intro m f hf
  rw [wf_bc7] at hf
  rw [encode_bc7, decode_bc7_of_selector7 (selector7_encode7 m f), parse7_encode7 m.isLt hf]

/-! ## Encoding what was decoded -/

theorem parse7_wf (m : Nat) (B : Block) : (parse7 tables m B).WF m := by
  refine ⟨rdbits_lt _ _ _, rdbits_lt _ _ _, rdbits_lt _ _ _, fun e he c hc => ?ep, fun k hk => ?pb, fun i hi => ?ix1,
    fun i hi => ?ix2⟩
  case ep =>
    rw [cell_parse7_ep m B he hc]
    split
    next hin =>
      refine (getD_readAll_lt _ _ _ _).trans_eq ?_
      rw [Desc7.bodyWidths, getD_map_epOrder_append _ _ _ _ hin.1 hin.2]
    next => positivity
  case pb =>
    rw [rd_parse7_pb m B hk]
    split
    next hin =>
      refine (getD_readAll_lt _ _ _ _).trans_eq ?_
      rw [Desc7.bodyWidths, getD_map_epOrder_append_right]
      simp [hin]
    next => decide
  case ix1 =>
    rw [rd_parse7_ix1 m B hi]
    refine (getD_readAll_lt _ _ _ _).trans_eq ?_
    rw [Tables.idxWidths7, List.getD_append _ _ _ _ (by simpa using hi), getD_map_range _ _ hi]
  case ix2 =>
    rw [rd_parse7_ix2 m B hi]
    split
    next hdual =>
      refine (getD_readAll_lt _ _ _ _).trans_eq ?_
      rw [Tables.idxWidths7, if_pos hdual, List.getD_append_right _ _ _ _ (by simp), List.length_map,
        List.length_range, Nat.add_sub_cancel_left, getD_map_range _ _ hi]
    next => positivity

theorem encode7_parse7 {B : Block} {m : Fin 8} (h : selector7 B = some m.val) : encode7 m (parse7 tables m B) = B := by
  have hsel := (rdbits_eq_two_pow_iff B 0 m).mpr (by simpa using (selector7_eq_some_iff B m).mp h)
  exact writeAll_eq_of_readAll (totalWidth_fields7 m.isLt (parse7_wf m B).1)
    ((readAll_fields7_eq_iff _ _ _ _).mpr
      ⟨hsel, rfl, (bodyValues_parse7 m.isLt B).symm, (indexValues_parse7 m B).symm⟩)

/-! ## Where the fields stand (R88 to R95) -/

/-- The first bits of the fields of mode `m`, as its descriptor and the order of R83 give them. -/
def StandsAt7 (m shape rot idxm r g b a pb ix1 ix2 : Nat) : Prop :=
  let d := tables.bc7 m
  shape = m + 1 ∧ rot = m + 1 + d.PB ∧ idxm = m + 1 + d.PB + d.RB ∧
  (∀ e < d.ne, ∀ c < d.nch, bodyStart7 d m + totalWidth (d.bodyWidths.take (c * d.ne + e)) =
    [r, g, b, a].getD c 0 + d.epWidth e c * e) ∧
  (∀ k < d.NP, bodyStart7 d m + totalWidth (d.bodyWidths.take (d.nch * d.ne + k)) = pb + k) ∧
  ix1 = indexStart7 d m ∧ (0 < d.IP2 → ix2 = indexStart7 d m + (16 * d.IP - (d.P + 1)))

theorem cell_parse7_ep_eq_rdbits {m : Nat} (hm : m < 8) (B : Block) {e c : Nat} (he : e < (tables.bc7 m).ne)
    (hc : c < (tables.bc7 m).nch) :
    cell (parse7 tables m B).ep e c 0 = rdbits B (bodyStart7 (tables.bc7 m) m +
      totalWidth ((tables.bc7 m).bodyWidths.take (c * (tables.bc7 m).ne + e))) ((tables.bc7 m).epWidth e c) := by
  obtain ⟨hne, hnch, -⟩ := bc7_array_bounds m hm
  have hw : (tables.bc7 m).bodyWidths.getD (c * (tables.bc7 m).ne + e) 0 = (tables.bc7 m).epWidth e c :=
    getD_map_epOrder_append _ _ _ _ he hc
  rw [cell_parse7_ep m B (by omega) (by omega), if_pos ⟨he, hc⟩, getD_readAll, hw]

theorem rd_parse7_pb_eq_rdbits {m : Nat} (hm : m < 8) (B : Block) {k : Nat} (hk : k < (tables.bc7 m).NP) :
    rd (parse7 tables m B).pb k 0 = rdbits B (bodyStart7 (tables.bc7 m) m +
      totalWidth ((tables.bc7 m).bodyWidths.take ((tables.bc7 m).nch * (tables.bc7 m).ne + k))) 1 := by
  obtain ⟨-, -, hNP⟩ := bc7_array_bounds m hm
  have hw : (tables.bc7 m).bodyWidths.getD ((tables.bc7 m).nch * (tables.bc7 m).ne + k) 0 = 1 := by
    rw [Desc7.bodyWidths, getD_map_epOrder_append_right]
    simp [hk]
  rw [rd_parse7_pb m B (by omega), if_pos hk, getD_readAll, hw]

theorem rd_parse7_ix1_eq_rdbits (m : Nat) (B : Block) {i : Nat} (hi : i < 16) :
    let d := tables.bc7 m
    let w := tables.idxWidth d.P (parse7 tables m B).shape d.IP
    rd (parse7 tables m B).ix1 i 0 = rdbits B (indexStart7 d m + totalWidth ((List.range i).map w)) (w i) := by
  rw [rd_parse7_ix1 m B hi, Tables.idxWidths7, readAll_append,
    List.getD_append _ _ _ _ (by simpa [readAll_length] using hi), getD_readAll_map_range _ _ _ hi]

theorem rd_parse7_ix2_eq_rdbits {m : Nat} (hm : m < 8) (B : Block) {i : Nat} (hi : i < 16)
    (hdual : 0 < (tables.bc7 m).IP2) :
    let d := tables.bc7 m
    rd (parse7 tables m B).ix2 i 0 =
      rdbits B (indexStart7 d m + (16 * d.IP - (d.P + 1)) + totalWidth ((List.range i).map d.idx2Width))
        (d.idx2Width i) := by
  obtain ⟨hP, hPB, hip⟩ := bc7_index_bounds m hm
  have hs : (parse7 tables m B).shape < 64 := (parse7_wf m B).1.trans_le hPB
  rw [rd_parse7_ix2 m B hi, if_pos hdual, Tables.idxWidths7, if_pos hdual, readAll_append,
    totalWidth_idxWidth hP hs hip, List.getD_append_right _ _ _ _ (by simp [readAll_length]), readAll_length,
    List.length_map, List.length_range, Nat.add_sub_cancel_left, getD_readAll_map_range _ _ _ hi]

theorem fieldsAt_of_standsAt7 {m shape rot idxm r g b a pb ix1 ix2 : Nat} (hm : m < 8)
    (h : StandsAt7 m shape rot idxm r g b a pb ix1 ix2) (B : Block) :
    FieldsAt m B shape rot idxm r g b a pb ix1 ix2 := by
  obtain ⟨rfl, rfl, rfl, hep, hpb, rfl, hix2⟩ := h
  refine ⟨rfl, rfl, rfl, fun e he => ?ep, fun k hk => ?pb, fun i hi => rd_parse7_ix1_eq_rdbits m B hi,
    fun hdual i hi => ?ix2⟩
  case ep =>
    have hat (c : Nat) (hc : c < (tables.bc7 m).nch) {w : Nat} (hw : (tables.bc7 m).epWidth e c = w) :
        cell (parse7 tables m B).ep e c 0 = rdbits B ([r, g, b, a].getD c 0 + w * e) w := by
      rw [cell_parse7_ep_eq_rdbits hm B he hc, hep e he c hc, hw]
    have hcolour (c : Nat) (hc : c < 3) : (tables.bc7 m).epWidth e c = (tables.bc7 m).CB := by
      rw [Desc7.epWidth, if_pos he, if_pos hc]
    have halpha : (tables.bc7 m).epWidth e 3 = (tables.bc7 m).AB := by
      rw [Desc7.epWidth, if_pos he, if_neg (by decide)]
    have hnch : 3 ≤ (tables.bc7 m).nch := by
      rw [Desc7.nch]
      split <;> decide
    exact ⟨hat 0 (by omega) (hcolour 0 (by decide)), hat 1 (by omega) (hcolour 1 (by decide)),
      hat 2 (by omega) (hcolour 2 (by decide)),
      fun hAB => hat 3 (by rw [Desc7.nch, if_pos hAB]; decide) halpha⟩
  case pb => rw [rd_parse7_pb_eq_rdbits hm B hk, hpb k hk]
  case ix2 => rw [hix2 hdual, rd_parse7_ix2_eq_rdbits hm B hi hdual]

/-- Settles O8: a field stands behind the fields before it in the order of R83, and adding up their widths gives the
positions of each mode's layout. -/
theorem bc7FieldPositions : Obligations.Bc7FieldPositions := by
  intro B
  refine ⟨?_, ?_, ?_, ?_, ?_, ?_, ?_, ?_⟩ <;> refine fieldsAt_of_standsAt7 (by decide) ?_ B <;> unfold StandsAt7 <;>
    decide

end Sys2Proof
end

section
/-! PROOFS. BC6H blocks (R96 to R114): the fields of a block are the fields it is written from, and where they stand. -/

-- Elaborated in order: the stack of each thread that waits for another counts against the check's memory limit.
set_option Elab.async false

namespace Sys2Proof

open Machine

/-! ## Header bits -/

theorem bit_toNat_testBit (x b : Nat) : (x >>> b) % 2 = (x.testBit b).toNat := by
  rw [Nat.toNat_testBit, Nat.shiftRight_eq_div_pow]

theorem readAll_replicate_one (B : Block) (n off : Nat) :
    readAll B (List.replicate n 1) off = (List.range n).map fun j => bit B (off + j) := by
  induction n generalizing off with
  | zero => rfl
  | succ n ih =>
    have hbit : rdbits B off 1 = bit B off := by simp [rdbits]
    rw [List.replicate_succ, readAll_cons, ih, List.range_succ_eq_map, hbit]
    simp [Function.comp_def, Nat.add_comm, Nat.add_left_comm]

/-- Bit `b` of an assembled field is set where the layout names it at a header bit that is 1 (R99). -/
theorem testBit_assemble (L : List (HdrField × Nat)) (bits : List Nat) (f : HdrField) (b : Nat) :
    (assemble L bits f).testBit b = (L.zip bits).any fun p => decide (p.1 = (f, b) ∧ p.2 = 1) := by
  suffices h : ∀ (l : List ((HdrField × Nat) × Nat)) (v : Nat),
      (l.foldl (fun v p => if p.1.1 = f ∧ p.2 = 1 then v ||| (1 <<< p.1.2) else v) v).testBit b =
        (v.testBit b || l.any fun p => decide (p.1 = (f, b) ∧ p.2 = 1)) by
    rw [assemble, h, Nat.zero_testBit, Bool.false_or]
  intro l
  induction l with
  | nil => simp
  | cons p l ih =>
    obtain ⟨⟨g, c⟩, x⟩ := p
    intro v
    rw [List.foldl_cons, ih, List.any_cons, ← Bool.or_assoc]
    congr 1
    by_cases hg : g = f <;> by_cases hx : x = 1 <;>
      simp [hg, hx, Nat.one_shiftLeft, Nat.testBit_two_pow]

/-- A field bit that the layout names once is the header bit there. -/
theorem testBit_assemble_of_getElem? {L : List (HdrField × Nat)} (hnodup : L.Nodup) {f : HdrField} {b j : Nat}
    (h : L[j]? = some (f, b)) (g : Nat → Nat) :
    (assemble L ((List.range L.length).map g) f).testBit b = decide (g j = 1) := by
  obtain ⟨hj, hget⟩ := List.getElem?_eq_some_iff.mp h
  rw [testBit_assemble, Bool.eq_iff_iff, List.any_eq_true]
  simp only [decide_eq_true_eq, List.mem_iff_getElem, List.length_zip, List.length_map, List.length_range, min_self]
  constructor
  · rintro ⟨_, ⟨i, hi, rfl⟩, hname, hone⟩
    simp only [List.getElem_zip, List.getElem_map, List.getElem_range] at hname hone
    obtain rfl : i = j := (hnodup.getElem_inj_iff).mp (hname.trans hget.symm)
    exact hone
  · exact fun hone => ⟨((f, b), g j), ⟨j, hj, by simp [hget]⟩, rfl, hone⟩

theorem layout_nodup : ∀ k : Fin 14, (tables.layout (k + 1)).Nodup := by decide +kernel

/-- The selector's bits stand first, and nowhere else. -/
theorem layout_selector : ∀ k : Fin 14,
    (tables.layout (k + 1)).take (tables.bc6h (k + 1)).selw =
      (List.range (tables.bc6h (k + 1)).selw).map (fun b => (HdrField.m, b)) ∧
    ∀ p ∈ (tables.layout (k + 1)).drop (tables.bc6h (k + 1)).selw, p.1 ≠ .m := by
  decide +kernel

theorem layout_mem_ep : ∀ (k : Fin 14) (e : Fin 4) (c : Fin 3), ∀ b < (tables.bc6h (k + 1)).epWidth e c,
    (HdrField.ep e c, b) ∈ tables.layout (k + 1) := by
  decide +kernel

theorem layout_mem_d : ∀ k : Fin 14, ∀ b < (tables.bc6h (k + 1)).shapeBits,
    (HdrField.d, b) ∈ tables.layout (k + 1) := by
  decide +kernel

/-- A header field of the block `B`, as `parse6` assembles it. -/
def field6 (k : Fin 14) (B : Block) (f : HdrField) : Nat :=
  assemble ((tables.layout (k + 1)).drop (tables.bc6h (k + 1)).selw) (headerBits k B) f

theorem field6_d (k : Fin 14) (B : Block) : (parse6 tables (k + 1) B).shape = field6 k B .d := rfl

theorem field6_ep (k : Fin 14) (B : Block) (e c : Nat) :
    cell (parse6 tables (k + 1) B).ep e c 0 = field6 k B (.ep e c) :=
  cell_parse6_ep k B e c

theorem field6_lt (k : Fin 14) (B : Block) (f : HdrField) : field6 k B f < 2 ^ (tables.bc6h (k + 1)).fieldWidth f :=
  assemble_layout_lt k _ _ f

/-- Where a field other than the selector stands, it stands behind the selector. -/
theorem selw_le_of_layout {k : Fin 14} {f : HdrField} {b j : Nat} (h : (tables.layout (k + 1))[j]? = some (f, b))
    (hf : f ≠ .m) : (tables.bc6h (k + 1)).selw ≤ j := by
  by_contra! hj
  rw [← List.getElem?_take_of_lt hj, (layout_selector k).1] at h
  simp [hj] at h
  exact hf h.1.symm

/-- Bit `b` of a field is the block bit at which the layout names it (R97 to R99). -/
theorem testBit_field6 {k : Fin 14} {f : HdrField} {b j : Nat} (h : (tables.layout (k + 1))[j]? = some (f, b))
    (hf : f ≠ .m) (B : Block) : (field6 k B f).testBit b = B.getLsbD j := by
  have hj := selw_le_of_layout h hf
  obtain ⟨i, rfl⟩ := Nat.exists_eq_add_of_le hj
  rw [← List.getElem?_drop] at h
  rw [field6, headerBits, readAll_replicate_one,
    testBit_assemble_of_getElem? ((layout_nodup k).sublist (List.drop_sublist _ _)) h]
  simp only [bit_eq_one_iff, Bool.decide_eq_true]

/-- A field's value from its bits, each at a block bit the layout names. -/
theorem field6_eq {k : Fin 14} {f : HdrField} (hf : f ≠ .m) {B : Block} {v : Nat}
    (hv : v < 2 ^ (tables.bc6h (k + 1)).fieldWidth f)
    (h : ∀ b < (tables.bc6h (k + 1)).fieldWidth f,
      ∃ j, (tables.layout (k + 1))[j]? = some (f, b) ∧ v.testBit b = B.getLsbD j) : field6 k B f = v := by
  refine Nat.eq_of_testBit_eq fun b => ?_
  by_cases hb : b < (tables.bc6h (k + 1)).fieldWidth f
  · obtain ⟨j, hj, hbit⟩ := h b hb
    rw [testBit_field6 hj hf, hbit]
  · have hpow : 2 ^ (tables.bc6h (k + 1)).fieldWidth f ≤ 2 ^ b := Nat.pow_le_pow_right (by decide) (by omega)
    rw [Nat.testBit_eq_false_of_lt (hv.trans_le hpow), Nat.testBit_eq_false_of_lt ((field6_lt k B f).trans_le hpow)]

/-! ## The fields in block order -/

theorem map_fst_fields6 (k : Fin 14) (f : Bc6hFields) :
    (f.fields tables (k + 1)).map Prod.fst = List.replicate (tables.bc6h (k + 1)).hdr 1 ++
      tables.idxWidths6 (tables.bc6h (k + 1)) f.shape := by
  obtain ⟨-, -, -, hlen, -, -⟩ := bc6h_bounds k
  rw [Bc6hFields.fields]
  simp only [layout_take_hdr]
  rw [List.map_append, List.map_map, List.map_map, ← hlen, ← List.map_const']
  rfl

theorem map_snd_fields6 (k : Fin 14) (f : Bc6hFields) :
    (f.fields tables (k + 1)).map Prod.snd =
      ((tables.layout (k + 1)).map fun p => ((f.hdrValue (tables.bc6h (k + 1)) p.1).testBit p.2).toNat) ++
        (List.range 16).map fun i => rd f.ix i 0 := by
  rw [Bc6hFields.fields]
  simp only [layout_take_hdr, bit_toNat_testBit]
  rw [List.map_append, List.map_map, List.map_map]
  rfl

/-- What it takes for a block of mode `k + 1` to read as the fields `f`: header bit by header bit, then the indices. -/
theorem readAll_fields6_eq_iff (k : Fin 14) (f : Bc6hFields) (B : Block) :
    readAll B ((f.fields tables (k + 1)).map Prod.fst) 0 = (f.fields tables (k + 1)).map Prod.snd ↔
      (∀ j p, (tables.layout (k + 1))[j]? = some p →
        B.getLsbD j = (f.hdrValue (tables.bc6h (k + 1)) p.1).testBit p.2) ∧
      readAll B (tables.idxWidths6 (tables.bc6h (k + 1)) f.shape) (tables.bc6h (k + 1)).hdr =
        (List.range 16).map fun i => rd f.ix i 0 := by
  obtain ⟨-, -, -, hlen, -, -⟩ := bc6h_bounds k
  have hbit (x y : Bool) : x.toNat = y.toNat ↔ x = y := by cases x <;> cases y <;> decide
  rw [map_fst_fields6, map_snd_fields6, readAll_append, totalWidth_replicate, Nat.mul_one, Nat.zero_add,
    List.append_eq_append_iff_of_size_eq_left (by simp [readAll_length, hlen]), readAll_replicate_one, ← hlen]
  refine and_congr_left' ?_
  simp only [List.ext_getElem?_iff, List.getElem?_map, Nat.zero_add, bit]
  refine forall_congr' fun j => ?_
  by_cases hj : j < (tables.layout (k + 1)).length
  · simp [hj, hbit]
  · simp [hj]

/-! ## What `parse6` reads -/

theorem rd_parse6_ix (k : Fin 14) (B : Block) {i : Nat} (hi : i < 16) :
    rd (parse6 tables (k + 1) B).ix i 0 =
      (readAll B (tables.idxWidths6 (tables.bc6h (k + 1)) (parse6 tables (k + 1) B).shape)
        (tables.bc6h (k + 1)).hdr).getD i 0 := by
  conv_lhs => rw [parse6, rd_tab _ _ _ hi]
  rfl

theorem Bc6hFields.eq_of_fields_eq {f g : Bc6hFields} (hshape : f.shape = g.shape) (hep : f.ep = g.ep)
    (hix : f.ix = g.ix) :
    f = g := by
  cases f
  cases g
  simp_all

/-! ## Decoding what was encoded -/

theorem totalWidth_fields6 (k : Fin 14) {f : Bc6hFields} (hs : f.shape < 2 ^ (tables.bc6h (k + 1)).shapeBits) :
    totalWidth ((f.fields tables (k + 1)).map Prod.fst) = 128 := by
  obtain ⟨-, -, hshape, -⟩ := bc6h_bounds k
  rw [map_fst_fields6, totalWidth_append, totalWidth_replicate, Nat.mul_one,
    hdr_add_totalWidth_idxWidths6 k (hs.trans_le hshape)]

theorem readAll_encode6 (k : Fin 14) {f : Bc6hFields} (hf : f.WF (k + 1)) :
    readAll (encode6 (k + 1) f) ((f.fields tables (k + 1)).map Prod.fst) 0 =
      (f.fields tables (k + 1)).map Prod.snd := by
  obtain ⟨hshape, -, hix⟩ := hf
  rw [encode6, readAll_writeAll _ _ _ (by rw [totalWidth_fields6 k hshape])]
  refine List.map_congr_left fun p hp => Nat.mod_eq_of_lt ?_
  simp only [Bc6hFields.fields, List.mem_append, List.mem_map, List.mem_range] at hp
  obtain ⟨q, -, rfl⟩ | ⟨i, hi, rfl⟩ := hp
  · exact Nat.mod_lt _ (by decide)
  · exact hix i hi

/-- A block whose fields read as those of `f` is parsed to `f`. -/
theorem parse6_eq_of_readAll {k : Fin 14} {f : Bc6hFields} (hf : f.WF (k + 1)) {B : Block}
    (h : readAll B ((f.fields tables (k + 1)).map Prod.fst) 0 = (f.fields tables (k + 1)).map Prod.snd) :
    parse6 tables (k + 1) B = f := by
  obtain ⟨hhead, hidx⟩ := (readAll_fields6_eq_iff k f B).mp h
  obtain ⟨hshape, hep, -⟩ := hf
  have hfield (g : HdrField) (hg : g ≠ .m)
      (hv : f.hdrValue (tables.bc6h (k + 1)) g < 2 ^ (tables.bc6h (k + 1)).fieldWidth g)
      (hmem : ∀ b < (tables.bc6h (k + 1)).fieldWidth g, (g, b) ∈ tables.layout (k + 1)) :
      field6 k B g = f.hdrValue (tables.bc6h (k + 1)) g :=
    field6_eq hg hv fun b hb =>
      let ⟨j, hj⟩ := List.mem_iff_getElem?.mp (hmem b hb)
      ⟨j, hj, (hhead j _ hj).symm⟩
  have hS : (parse6 tables (k + 1) B).shape = f.shape :=
    (field6_d k B).trans (hfield .d (by decide) hshape (layout_mem_d k))
  have hE : (parse6 tables (k + 1) B).ep = f.ep := by
    rw [← grid_cell (parse6 tables (k + 1) B).ep 0, ← grid_cell f.ep 0]
    refine grid_congr fun e he c hc => ?_
    have hw : (tables.bc6h (k + 1)).fieldWidth (.ep e c) = (tables.bc6h (k + 1)).epWidth e c := if_pos hc
    rw [field6_ep]
    exact hfield (.ep e c) (by simp) (hw ▸ hep e he c hc) (hw ▸ layout_mem_ep k ⟨e, he⟩ ⟨c, hc⟩)
  refine Bc6hFields.eq_of_fields_eq hS hE (vector_ext_rd _ _ 0 fun i hi => ?_)
  rw [rd_parse6_ix k B hi, hS, hidx, getD_map_range _ _ hi]

theorem parse6_encode6 (k : Fin 14) {f : Bc6hFields} (hf : f.WF (k + 1)) :
    parse6 tables (k + 1) (encode6 (k + 1) f) = f :=
  parse6_eq_of_readAll hf (readAll_encode6 k hf)

/-- Settles O3: each header bit holds the field bit the layout names there, every bit of every field is named, and the
indices follow; the first bits are the mode's selector. -/
theorem bc6hDecodeOfEncode : Obligations.Bc6hDecodeOfEncode := by
  intro k f hf
  rw [wf_bc6h] at hf
  rw [encode_bc6h, decode_bc6h_of_selector6 (selector6_encode6 k f), parse6_encode6 k hf]

/-! ## Encoding what was decoded -/

theorem parse6_wf (k : Fin 14) (B : Block) : (parse6 tables (k + 1) B).WF (k + 1) := by
  refine ⟨parse6_shape_lt k B, fun e _ c hc => ?ep, fun i hi => ?ix⟩
  case ep => simpa [Desc6.fieldWidth, hc] using parse6_ep_lt k B e c
  case ix =>
    rw [rd_parse6_ix k B hi]
    refine (getD_readAll_lt _ _ _ _).trans_eq ?_
    rw [Tables.idxWidths6, getD_map_range _ _ hi]

theorem encode6_parse6 {B : Block} {k : Fin 14} (h : selector6 tables B = some (k.val + 1)) :
    encode6 (k + 1) (parse6 tables (k + 1) B) = B := by
  refine writeAll_eq_of_readAll (totalWidth_fields6 k (parse6_wf k B).1)
    ((readAll_fields6_eq_iff _ _ _).mpr ⟨fun j p hp => ?header, ?indices⟩)
  case header =>
    obtain ⟨f, b⟩ := p
    by_cases hj : j < (tables.bc6h (k + 1)).selw
    · have hname := hp
      rw [← List.getElem?_take_of_lt hj, (layout_selector k).1] at hname
      simp only [List.getElem?_map, List.getElem?_range, hj, Option.map_some, Option.some.injEq,
        Prod.mk.injEq] at hname
      obtain ⟨rfl, rfl⟩ := hname
      rw [Bc6hFields.hdrValue, ← (selector6_eq_some_iff B k).mp h, testBit_rdbits]
      simp [hj]
    · have hf : f ≠ .m := (layout_selector k).2 (f, b) <| List.mem_iff_getElem?.mpr
        ⟨j - (tables.bc6h (k + 1)).selw, by rw [List.getElem?_drop, Nat.add_sub_cancel' (by omega), hp]⟩
      rw [← testBit_field6 hp hf]
      cases f with
      | m => exact absurd rfl hf
      | d => rfl
      | ep e c => rw [← field6_ep]; rfl
  case indices =>
    refine (map_range_getD _ 0 (n := 16) (by simp [readAll_length, Tables.idxWidths6])).symm.trans ?_
    exact List.map_congr_left fun i hi => (rd_parse6_ix k B (List.mem_range.mp hi)).symm

end Sys2Proof
end

section
/-! PROOFS. Where the fields of BC6H stand (R97 to R114), and that the layouts are complete (R97 to R100). -/

-- Elaborated in order: the stack of each thread that waits for another counts against the check's memory limit.
set_option Elab.async false

namespace Sys2Proof

open Machine

/-! ## The layouts -/

/-- The header of a mode names exactly the bits of its endpoint fields. -/
theorem ep_mem_layout_iff (k : Fin 14) {e c : Nat} (he : e < 4) (hc : c < 3) (b : Nat) :
    (HdrField.ep e c, b) ∈ tables.layout (k + 1) ↔ b < (tables.bc6h (k + 1)).epWidth e c := by
  refine ⟨fun h => ?_, layout_mem_ep k ⟨e, he⟩ ⟨c, hc⟩ b⟩
  simpa [Desc6.fieldWidth, hc] using layout_bit_lt k _ h

theorem d_mem_layout_iff (k : Fin 14) (b : Nat) :
    (HdrField.d, b) ∈ tables.layout (k + 1) ↔ b < (tables.bc6h (k + 1)).shapeBits :=
  ⟨fun h => layout_bit_lt k _ h, layout_mem_d k b⟩

theorem m_mem_layout_iff (k : Fin 14) (b : Nat) :
    (HdrField.m, b) ∈ tables.layout (k + 1) ↔ b < (tables.bc6h (k + 1)).selw := by
  refine ⟨fun h => layout_bit_lt k _ h, fun h => List.mem_of_mem_take (i := (tables.bc6h (k + 1)).selw) ?_⟩
  rw [(layout_selector k).1]
  exact List.mem_map.mpr ⟨b, List.mem_range.mpr h, rfl⟩

theorem exists_fin14 {mode : Nat} (h : mode < 15) (h1 : 1 ≤ mode) : ∃ k : Fin 14, mode = k + 1 :=
  ⟨⟨mode - 1, by omega⟩, (Nat.sub_add_cancel h1).symm⟩

theorem bc6h_region_split : ∀ k : Fin 14,
    (tables.bc6h (k + 1)).hdr = indexStart6 (k + 1) ∧ (tables.bc6h (k + 1)).IP = (if k.val + 1 ≤ 10 then 3 else 4) ∧
      (tables.bc6h (k + 1)).shapeBits = (if k.val + 1 ≤ 10 then 5 else 0) ∧
      (10 < k.val + 1 → (tables.bc6h (k + 1)).ne = 2) := by
  decide

/-- Settles O14: each layout names the bits below a field's width and no others, once each; the indices take what the
header leaves, as each region has one fixup pixel. -/
theorem bc6hHeadersAreComplete : Obligations.Bc6hHeadersAreComplete := by
  intro mode hmode hmode1
  obtain ⟨k, rfl⟩ := exists_fin14 hmode hmode1
  obtain ⟨-, -, hshape64, hlen, -, -⟩ := bc6h_bounds k
  obtain ⟨hhdr, hIP, -, -⟩ := bc6h_region_split k
  refine ⟨hlen.trans hhdr, hlen, layout_nodup k, (layout_selector k).1, fun b _ => m_mem_layout_iff k b,
    fun b _ => d_mem_layout_iff k b, fun e he c hc b _ => ep_mem_layout_iff k he hc b, hIP, fun shape hs => ?_⟩
  have hsum := hdr_add_totalWidth_idxWidths6 k (hs.trans_le hshape64)
  omega

/-! ## Scattered fields -/

theorem gather_nil (B : Block) : gather B [] = 0 := rfl

/-- The first listed block bit is bit 0 of the field. -/
theorem gather_cons (B : Block) (p : Nat) (ps : List Nat) : gather B (p :: ps) = bit B p + 2 * gather B ps := by
  simp only [gather, List.zipIdx_cons', List.map_cons, List.sum_cons, List.map_map, ← List.sum_map_mul_left, pow_zero,
    mul_one]
  congr 2
  refine List.map_congr_left fun q _ => ?_
  simp only [Function.comp_apply, Prod.map, id, pow_succ]
  ring

theorem gather_lt (B : Block) (ps : List Nat) : gather B ps < 2 ^ ps.length := by
  induction ps with
  | nil => simp [gather_nil]
  | cons p ps ih =>
    have hbit := bit_le_one B p
    rw [gather_cons, List.length_cons, pow_succ]
    omega

theorem testBit_gather (B : Block) (ps : List Nat) {b : Nat} (hb : b < ps.length) :
    (gather B ps).testBit b = B.getLsbD (ps.getD b 0) := by
  induction ps generalizing b with
  | nil => exact absurd hb (Nat.not_lt_zero b)
  | cons p ps ih =>
    rw [gather_cons]
    cases b with
    | zero => cases h : B.getLsbD p <;> simp [bit, h, Nat.testBit_zero, Nat.add_mod]
    | succ b =>
      have hdiv : (bit B p + 2 * gather B ps) / 2 = gather B ps := by
        have := bit_le_one B p
        omega
      rw [Nat.testBit_succ, hdiv, ih (Nat.lt_of_succ_lt_succ hb), List.getD_cons_succ]

/-- The layouts name the bits of the scattered fields at the block bits listed for them. -/
theorem layout_scatteredFields : ∀ p ∈ scatteredFields, ∃ k : Fin 14, p.1 = k + 1 ∧
    p.2.2.2.length = (tables.bc6h (k + 1)).fieldWidth (.ep p.2.1 p.2.2.1) ∧
    ∀ b < p.2.2.2.length, (tables.layout (k + 1))[p.2.2.2.getD b 0]? = some (.ep p.2.1 p.2.2.1, b) := by
  decide +kernel

/-- Settles O9: an endpoint field's bits are the block bits at which the layout names them. -/
theorem bc6hScatteredFields : Obligations.Bc6hScatteredFields := by
  intro B p hp
  obtain ⟨k, hk, hlen, hname⟩ := layout_scatteredFields p hp
  rw [hk, field6_ep]
  rw [hlen] at hname
  exact field6_eq (by simp) (hlen ▸ gather_lt B _) fun b hb => ⟨_, hname b hb, testBit_gather B _ (hlen ▸ hb)⟩

/-! ## Fields in one run -/

/-- The layouts name the bits of the other endpoint fields in ascending order from the first. -/
theorem layout_runFields : ∀ p ∈ runFields, ∃ k : Fin 14, p.1 = k + 1 ∧
    p.2.2.2.2 = (tables.bc6h (k + 1)).fieldWidth (.ep p.2.1 p.2.2.1) ∧
    ∀ b < p.2.2.2.2, (tables.layout (k + 1))[p.2.2.2.1 + b]? = some (.ep p.2.1 p.2.2.1, b) := by
  decide +kernel

theorem layout_shape : ∀ k : Fin 14, ∀ b < (tables.bc6h (k + 1)).shapeBits,
    (tables.layout (k + 1))[77 + b]? = some (.d, b) := by
  decide +kernel

/-- A field whose bits the layout names in ascending order is read in one access. -/
theorem field6_eq_rdbits {k : Fin 14} {f : HdrField} (hf : f ≠ .m) (B : Block) {off w : Nat}
    (hw : w = (tables.bc6h (k + 1)).fieldWidth f)
    (h : ∀ b < w, (tables.layout (k + 1))[off + b]? = some (f, b)) : field6 k B f = rdbits B off w := by
  subst hw
  exact field6_eq hf (rdbits_lt _ _ _) fun b hb => ⟨_, h b hb, by simp [testBit_rdbits, hb]⟩

/-- Every endpoint field of a mode is listed once, as scattered or as a run. -/
theorem listed_once : ∀ (k : Fin 14) (e : Fin 4) (c : Fin 3),
    ((scatteredFields.map fun p => (p.1, p.2.1, p.2.2.1)) ++ runFields.map fun p => (p.1, p.2.1, p.2.2.1)).count
      (k.val + 1, e.val, c.val) = if e < (tables.bc6h (k + 1)).ne then 1 else 0 := by
  decide +kernel

/-- Settles O59: the same as O9 of fields whose listed block bits ascend; the indices stand one behind the other from
the end of the header. -/
theorem bc6hContiguousFields : Obligations.Bc6hContiguousFields := by
  refine ⟨fun B => ⟨fun p hp => ?runs, fun mode hmode hmode1 => ?rest⟩, fun mode hmode hmode1 e he c hc => ?once⟩
  case runs =>
    obtain ⟨k, hk, hw, hname⟩ := layout_runFields p hp
    rw [hk, field6_ep]
    exact field6_eq_rdbits (by simp) B hw hname
  case rest =>
    obtain ⟨k, rfl⟩ := exists_fin14 hmode hmode1
    obtain ⟨hhdr, -, hbits, hone⟩ := bc6h_region_split k
    refine ⟨?shape, fun h10 e he he2 c hc => ?noEndpoint, fun i hi => ?indices⟩
    case shape =>
      rw [field6_d, field6_eq_rdbits (f := .d) (by decide) B rfl (layout_shape k), Desc6.fieldWidth, hbits]
      split <;> rfl
    case noEndpoint => exact parse6_ep_eq_zero k B (by rw [hone h10]; omega)
    case indices => rw [rd_parse6_ix k B hi, Tables.idxWidths6, getD_readAll_map_range _ _ _ hi, hhdr]
  case once =>
    obtain ⟨k, rfl⟩ := exists_fin14 hmode hmode1
    exact listed_once k ⟨e, he⟩ ⟨c, hc⟩

end Sys2Proof
end

section
/-! PROOFS. Decoding and encoding the other words (R116, R118, R120, R121): reserved selectors and commands. -/

namespace Sys2Proof

open Machine

theorem bc6h_reserved_decode (r : BitVec 123) (x : BitVec 5) : rdbits (r ++ x) 0 5 = x.toNat :=
  (toNat_and_two_pow_sub_one (r ++ x) 5).symm.trans (Laws.SelectorBits.low_append 123 5 r x)

theorem selector7_reserved (r : BitVec 120) : selector7 (r ++ 0x00#8) = none := by
  have hlow : rdbits (r ++ 0x00#8) 0 8 = 0 :=
    (toNat_and_two_pow_sub_one (r ++ 0x00#8) 8).symm.trans (Laws.SelectorBits.low_append 120 8 r 0x00#8)
  rw [selector7_eq_none_iff]
  simpa using (rdbits_eq_zero_iff _ 0 8).mp hlow

/-- The bits above the low `w` and those low bits make the word. -/
theorem extractLsb'_append_of_rdbits {n w : Nat} (h : n + w = 128) (B : Block) {x : BitVec w}
    (hx : rdbits B 0 w = x.toNat) : B.extractLsb' w n ++ x = B.cast h.symm := by
  refine BitVec.eq_of_getLsbD_eq fun i hi => ?_
  have hlow := congrArg (Nat.testBit · i) hx
  simp only [testBit_rdbits, BitVec.testBit_toNat, Nat.zero_add] at hlow
  rw [BitVec.getLsbD_append, BitVec.getLsbD_cast]
  by_cases hiw : i < w
  · simpa [hiw] using hlow.symm
  · have hin : i - w < n := by omega
    have hadd : w + (i - w) = i := by omega
    simp [hiw, hin, hadd]

/-- Settles O4: a reserved selector is the low bits of its block, the rest is kept as it is; a command's word carries
its operands whole. -/
theorem reservedAndCommandDecodeOfEncode : Obligations.ReservedAndCommandDecodeOfEncode := by
  refine ⟨fun r => ?bc7, fun r => ?bc6h, fun B => ⟨rfl, rfl, rfl⟩, fun q fmt c => ?enc, fun fmt => rfl, fun op hop => ?fmt⟩
  case bc7 =>
    have h := decode_bc7_of_selector7_none (selector7_reserved r)
    rwa [BitVec.extractLsb'_append_eq_left] at h
  case bc6h =>
    have h (x : BitVec 5) := decode_bc6h_of_reserved (r ++ x)
    simp only [BitVec.extractLsb'_append_eq_left] at h
    exact ⟨(h 0x13#5).1 (bc6h_reserved_decode r _), (h 0x17#5).2.1 (bc6h_reserved_decode r _),
      (h 0x1B#5).2.2.1 (bc6h_reserved_decode r _), (h 0x1F#5).2.2.2 (bc6h_reserved_decode r _)⟩
  case enc => cases q <;> fin_cases fmt <;> rfl
  case fmt =>
    simp only [encode, decode, decodeCmd, if_neg hop, if_true]

theorem encode_decode_bc7 (B : Block) : encode (decode (.bc7 B)) = .bc7 B := by
  rcases h : selector7 B with - | m
  · have hlow : rdbits B 0 8 = (0x00#8).toNat :=
      (rdbits_eq_zero_iff B 0 8).mpr (by simpa using (selector7_eq_none_iff B).mp h)
    rw [decode_bc7_of_selector7_none h]
    exact congrArg Code.bc7 (extractLsb'_append_of_rdbits rfl B hlow)
  · lift m to Fin 8 using selector7_lt B h
    rw [decode_bc7_of_selector7 h, encode_bc7, encode7_parse7 h]

/-- A BC6H block has a mode's selector or one of the four reserved ones. -/
theorem decode_bc6h_cases (B : Block) :
    (∃ k : Fin 14, selector6 tables B = some (k.val + 1) ∧
      decode (.bc6h B) = .bc6h k (parse6 tables (k + 1) B)) ∨
    (rdbits B 0 5 = (0x13#5).toNat ∧ decode (.bc6h B) = .bc6hReserved13 (B.extractLsb' 5 123)) ∨
    (rdbits B 0 5 = (0x17#5).toNat ∧ decode (.bc6h B) = .bc6hReserved17 (B.extractLsb' 5 123)) ∨
    (rdbits B 0 5 = (0x1B#5).toNat ∧ decode (.bc6h B) = .bc6hReserved1B (B.extractLsb' 5 123)) ∨
    (rdbits B 0 5 = (0x1F#5).toNat ∧ decode (.bc6h B) = .bc6hReserved1F (B.extractLsb' 5 123)) := by
  obtain ⟨h13, h17, h1B, h1F⟩ := decode_bc6h_of_reserved B
  rcases h : selector6 tables B with - | mode
  · have hv := (selector6_eq_none_iff B).mp h
    simp only [reservedSelectors, List.mem_cons, List.not_mem_nil, or_false] at hv
    exact .inr (hv.imp (fun hv => ⟨hv, h13 hv⟩) <| Or.imp (fun hv => ⟨hv, h17 hv⟩) <|
      Or.imp (fun hv => ⟨hv, h1B hv⟩) fun hv => ⟨hv, h1F hv⟩)
  · obtain ⟨k, rfl⟩ := exists_of_selector6_eq_some h
    exact .inl ⟨k, rfl, decode_bc6h_of_selector6 h⟩

theorem encode_decode_bc6h (B : Block) : encode (decode (.bc6h B)) = .bc6h B := by
  have hpack {x : BitVec 5} (hx : rdbits B 0 5 = x.toNat) : B.extractLsb' 5 123 ++ x = B :=
    extractLsb'_append_of_rdbits rfl B hx
  obtain ⟨k, hsel, h⟩ | ⟨hx, h⟩ | ⟨hx, h⟩ | ⟨hx, h⟩ | ⟨hx, h⟩ := decode_bc6h_cases B
  · rw [h, encode_bc6h, encode6_parse6 hsel]
  · rw [h, encode, hpack hx]
  · rw [h, encode, hpack hx]
  · rw [h, encode, hpack hx]
  · rw [h, encode, hpack hx]

theorem wf_decode_bc7 (B : Block) : (decode (.bc7 B)).WF := by
  rcases h : selector7 B with - | m
  · rw [decode_bc7_of_selector7_none h]
    trivial
  · lift m to Fin 8 using selector7_lt B h
    rw [decode_bc7_of_selector7 h, wf_bc7]
    exact parse7_wf m B

theorem wf_decode_bc6h (B : Block) : (decode (.bc6h B)).WF := by
  obtain ⟨k, -, h⟩ | ⟨-, h⟩ | ⟨-, h⟩ | ⟨-, h⟩ | ⟨-, h⟩ := decode_bc6h_cases B
  · rw [h, wf_bc6h]
    exact parse6_wf k B
  all_goals rw [h]; trivial

/-- Settles O5: the fields a block is read as fill it, so writing them gives it back. -/
theorem encodeOfDecodedBlock : Obligations.EncodeOfDecodedBlock := fun B =>
  ⟨wf_decode_bc7 B, encode_decode_bc7 B, wf_decode_bc6h B, encode_decode_bc6h B⟩

/-- Settles O1, by evaluating the decoder on each word; the operands of a command are passed on whatever they are. -/
theorem listedWordsDecode : Obligations.ListedWordsDecode :=
  ⟨by decide +kernel, by decide +kernel, by decide +kernel, by decide +kernel, by decide +kernel, by decide +kernel,
    by decide +kernel, by decide +kernel, by decide +kernel, fun _ _ => ⟨rfl, rfl, rfl, rfl, rfl, rfl⟩⟩

end Sys2Proof
end

section
/-! PROOFS. Samples, quantizer range, rotation, palette symmetry and endpoint values (R25, R171 to R175, R206, R240,
R278). -/

-- Elaborated in order: the stack of each thread that waits for another counts against the check's memory limit.
set_option Elab.async false

namespace Sys2Proof.Machine

/-! ## Samples -/

theorem toNat_extractLsb'_eq (x : Lane) (c : Nat) :
    (x.extractLsb' (16 * c) 16).toNat = x.toNat / 2 ^ (16 * c) % 65536 := by
  rw [BitVec.extractLsb'_toNat, Nat.shiftRight_eq_div_pow]

/-- Channel `c` as a number, by the format. -/
theorem chan6_eq (x : Lane) (c : Nat) :
    chan6 false x c = (x.toNat / 2 ^ (16 * c) % 65536 : Nat) ∧
    chan6 true x c = if x.toNat / 2 ^ (16 * c) % 65536 < 32768 then ((x.toNat / 2 ^ (16 * c) % 65536 : Nat) : Int)
      else (x.toNat / 2 ^ (16 * c) % 65536 : Nat) - 65536 := by
  refine ⟨by rw [chan6, toNat_extractLsb'_eq]; rfl, ?_⟩
  rw [chan6, if_pos rfl, BitVec.toInt_eq_toNat_cond, toNat_extractLsb'_eq]
  exact if_congr (by omega) rfl rfl

/-- The three channels of R25 lie in bits 47:0. -/
theorem toNat_extractLsb'_of_low_bits {x y : Lane} (h : x.toNat % 2 ^ 48 = y.toNat % 2 ^ 48) {c : Nat} (hc : c < 3) :
    x.extractLsb' (16 * c) 16 = y.extractLsb' (16 * c) 16 := by
  apply BitVec.eq_of_toNat_eq
  rw [toNat_extractLsb'_eq, toNat_extractLsb'_eq]
  interval_cases c <;> omega

theorem pack6_lt (v : Nat → Int) : (pack6 v).toNat < 2 ^ 48 := by
  have h := pack6_toNat v
  omega

/-- Settles O27: a channel is a 16-bit digit of the low 48 bits, and packing writes the channels as those digits. -/
theorem bc6hSamplePacking : Obligations.Bc6hSamplePacking := by
  refine ⟨fun x c _ => chan6_eq x c, fun x y hxy sg c hc => ?_, fun sg v hv => ⟨fun c hc => ?_, pack6_lt v⟩⟩
  · rw [chan6, chan6, toNat_extractLsb'_of_low_bits hxy hc]
  · refine chan6_pack6 hc ?_
    have hrange := hv c hc
    cases sg with
    | true => exact (fits_signed_iff _ _).mpr (by simpa using hrange)
    | false => exact (fits_unsigned_iff _ _).mpr (by simp at hrange ⊢; omega)

/-! ## The BC7 quantizer -/

theorem q7_eight {v : Nat} (hv : v < 256) : q7 v 8 = v := by
  rw [q7_eq_div]
  norm_num
  omega

theorem uq7_le {q p : Nat} (hp : 4 ≤ p) (hp8 : p ≤ 8) (hq : q < 2 ^ p) : uq7 q p ≤ 255 := by
  rw [uq7_eq_add hq]
  interval_cases p <;> omega

/-- Settles O17: the biased value is clamped below `2 ^ 8` before the low bits go, and the unquantizer repeats the `p`
bits to fill a byte. -/
theorem bc7QuantizerRange : Obligations.Bc7QuantizerRange := by
  refine ⟨fun v _ p hp _ => q7_lt v (Nat.le_of_lt_succ hp), fun v hv => q7_eight hv, fun p hp hp4 => ⟨fun q hq => ?_, ?_⟩⟩
  · exact uq7_le hp4 (Nat.le_of_lt_succ hp) hq
  · interval_cases p <;> decide

/-! ## The rotation -/

theorem rotChan_of_pos {rot : Nat} (h : 1 ≤ rot) (h4 : rot < 4) : rotChan rot = rot - 1 := by
  interval_cases rot <;> rfl

@[simp] theorem rotate_three (rot : Nat) (v : Nat → Int) : rotate rot v 3 = v (rotChan rot) := if_pos rfl

@[simp] theorem rotate_rotChan (rot : Nat) (v : Nat → Int) : rotate rot v (rotChan rot) = v 3 := by
  by_cases h : rotChan rot = 3
  · simp [rotate, h]
  · simp [rotate, h]

theorem rotate_of_ne {rot c : Nat} (v : Nat → Int) (h3 : c ≠ 3) (hc : c ≠ rotChan rot) : rotate rot v c = v c := by
  rw [rotate, if_neg h3, if_neg hc]

/-- The swap undoes itself. -/
theorem rotate_rotate (rot : Nat) (v : Nat → Int) : rotate rot (rotate rot v) = v := by
  funext c
  by_cases h3 : c = 3
  · subst h3
    rw [rotate_three, rotate_rotChan]
  · by_cases hc : c = rotChan rot
    · subst hc
      rw [rotate_rotChan, rotate_three]
    · rw [rotate_of_ne _ h3 hc, rotate_of_ne _ h3 hc]

/-- Settles O28: the rotation swaps A and the channel it names, which is A itself for rotation 0. -/
theorem rotationIsASwap : Obligations.RotationIsASwap := by
  refine fun v => ⟨funext fun c => ?zero, fun rot h4 h1 => ?swap, fun rot _ => rotate_rotate rot v⟩
  case zero =>
    by_cases h : c = 3
    · subst h
      exact rotate_three 0 v
    · exact rotate_of_ne v h h
  case swap =>
    rw [← rotChan_of_pos h1 h4]
    exact ⟨rotate_three rot v, rotate_rotChan rot v, fun c hc hne => rotate_of_ne v hc.ne hne⟩

/-! ## Palettes of swapped endpoints -/

/-- A mirrored weight is what is left of 64. -/
theorem weight_mirror_cast {ip j : Nat} (hip : ip < 5) (hip' : 2 ≤ ip) (hj : j < 2 ^ ip) :
    (tables.weight ip (2 ^ ip - 1 - j) : Int) = 64 - tables.weight ip j := by
  have hw := weight_le ip j
  rw [weight_mirror ip hip hip' j hj]
  omega

theorem pal7_swap (E : Nat → Nat → Int) (r c : Nat) {ip j : Nat} (hip : ip < 5) (hip' : 2 ≤ ip) (hj : j < 2 ^ ip) :
    pal7 tables (fun e => E (endOf true e)) r ip (2 ^ ip - 1 - j) c = pal7 tables E r ip j c := by
  rw [pal7, pal7, (endOf_true r).1, (endOf_true r).2, weight_mirror_cast hip hip' hj,
    interp_swap (E (2 * r) c)]

theorem pal6_swap {d : Desc6} (sg : Bool) (q : Nat → Nat → Int) (r c : Nat) {j : Nat} (hip : d.IP < 5) (hip' : 2 ≤ d.IP)
    (hj : j < 2 ^ d.IP) :
    pal6 tables d sg (fun e => q (endOf true e)) r (2 ^ d.IP - 1 - j) c = pal6 tables d sg q r j c :=
  congrArg (fin6 · sg) (pal7_swap (fun e c => uq6 (q e c) d.EP sg) r c hip hip' hj)

/-- Settles O24: swapping the endpoints mirrors the weight, and the weight tables are their own mirror images. -/
theorem paletteMirror : Obligations.PaletteMirror := by
  refine ⟨interp_swap, fun ip hip hip' j hj r c => ⟨fun E => pal7_swap E r c hip hip' hj, ?_⟩⟩
  rintro d sg q rfl
  exact pal6_swap sg q r c hip hip' hj

/-! ## Endpoint values and p-bits -/

/-- A channel the mode stores, in a mode with p-bits. -/
theorem refEndpoint7_of_pbit {m e c w : Nat} (f : Bc7Fields)
    (hw : (if c < 3 then (tables.bc7 m).CB else (tables.bc7 m).AB) = w) (hpos : w ≠ 0) (hNP : (tables.bc7 m).NP ≠ 0) :
    refEndpoint7 m f e c = uq7 (2 * cell f.ep e c 0 + rd f.pb ((tables.bc7 m).pbOf e) 0) (w + 1) := by
  simp only [refEndpoint7, hw, if_neg hpos, if_neg hNP]

/-- A channel the mode stores, in a mode without p-bits. -/
theorem refEndpoint7_of_no_pbit {m e c w : Nat} (f : Bc7Fields)
    (hw : (if c < 3 then (tables.bc7 m).CB else (tables.bc7 m).AB) = w) (hpos : w ≠ 0) (hNP : (tables.bc7 m).NP = 0) :
    refEndpoint7 m f e c = uq7 (cell f.ep e c 0) w := by
  simp only [refEndpoint7, hw, if_neg hpos, if_pos hNP]

/-- Alpha where the mode stores none (R175). -/
theorem refEndpoint7_no_alpha {m e : Nat} (f : Bc7Fields) (h : (tables.bc7 m).AB = 0) : refEndpoint7 m f e 3 = 255 := by
  simp [refEndpoint7, h]

/-- Endpoint `e` takes p-bit `e` where each endpoint has one of its own. -/
theorem pbOf_own {d : Desc7} (h : d.NP = d.ne) (e : Nat) : d.pbOf e = e := by
  rw [Desc7.pbOf, h, Nat.mul_div_cancel _ (by simp [Desc7.ne])]

theorem pbOf_mode1 (e : Nat) : (tables.bc7 1).pbOf e = e / 2 := by
  rw [bc7_1]
  exact Nat.mul_div_mul_right e 2 (by decide)

/-- Settles O29: each mode's widths and p-bit count pick the case of R174 and R175, and the p-bit is the endpoint's own
in every mode with p-bits but mode 1, where it is the region's. -/
theorem bc7EndpointValues : Obligations.Bc7EndpointValues := by
  intro f e c _ hc
  have hcolour (m : Nat) {w : Nat} (hw : (tables.bc7 m).CB = w) :
      (if c < 3 then (tables.bc7 m).CB else (tables.bc7 m).AB) = w := (if_pos hc).trans hw
  have hown (m ch w : Nat) (hw : (if ch < 3 then (tables.bc7 m).CB else (tables.bc7 m).AB) = w) (hpos : w ≠ 0)
      (hNP : (tables.bc7 m).NP = (tables.bc7 m).ne) :
      refEndpoint7 m f e ch = uq7 (2 * cell f.ep e ch 0 + rd f.pb e 0) (w + 1) := by
    have hne : (tables.bc7 m).NP ≠ 0 := by simp [hNP, Desc7.ne]
    rw [refEndpoint7_of_pbit f hw hpos hne, pbOf_own hNP]
  refine ⟨hown 0 c 4 (hcolour 0 rfl) (by decide) rfl, fun _ => ?_, ?_, fun _ => hown 3 c 7 (hcolour 3 rfl) (by decide) rfl,
    ?_, ?_, ?_, ?_, fun _ => ⟨hown 6 c 7 (hcolour 6 rfl) (by decide) rfl, hown 6 3 7 rfl (by decide) rfl⟩,
    fun _ => ⟨hown 7 c 5 (hcolour 7 rfl) (by decide) rfl, hown 7 3 5 rfl (by decide) rfl⟩, fun m hm => ?_⟩
  · rw [refEndpoint7_of_pbit (w := 6) f (hcolour 1 rfl) (by decide) (by decide), pbOf_mode1]
  · exact refEndpoint7_of_no_pbit f (hcolour 2 rfl) (by decide) rfl
  · exact refEndpoint7_of_no_pbit f (hcolour 4 rfl) (by decide) rfl
  · exact refEndpoint7_of_no_pbit f (m := 4) (c := 3) rfl (by decide) rfl
  · exact refEndpoint7_of_no_pbit f (hcolour 5 rfl) (by decide) rfl
  · exact refEndpoint7_of_no_pbit f (m := 5) (c := 3) rfl (by decide) rfl
  · exact refEndpoint7_no_alpha f (by interval_cases m <;> rfl)

theorem sum_map_mod_two {α : Type} (l : List α) (g : α → Nat) :
    (l.map fun x => g x % 2).sum = l.countP fun x => g x % 2 = 1 := by
  induction l with
  | nil => rfl
  | cons x l ih =>
    rw [List.map_cons, List.sum_cons, ih, List.countP_cons]
    obtain h | h := Nat.mod_two_eq_zero_or_one (g x)
    · simp [h]
    · simp [h, Nat.add_comm]

theorem votePb_eq (d : Desc7) (c : Candidate) (g : Nat) :
    votePb d c g =
      if (voters d g).length < 2 * ((voters d g).countP fun p => quant7 d c p.1 p.2 % 2 = 1) then 1 else 0 := by
  rw [votePb, sum_map_mod_two, Nat.shiftRight_one]
  exact if_congr (by omega) rfl rfl

theorem votePb_le_one (d : Desc7) (c : Candidate) (g : Nat) : votePb d c g ≤ 1 := by
  rw [votePb]
  split <;> decide

theorem candPb_le_one (c : Candidate) (k : Nat) : candPb c k ≤ 1 := Nat.le_of_lt_succ (BitVec.isLt _)

theorem pbitBc7_le_one (d : Desc7) (q : Bool) (c : Candidate) (k : Nat) : pbitBc7 d q c k ≤ 1 := by
  rw [pbitBc7]
  split_ifs
  · exact votePb_le_one d c k
  · exact candPb_le_one c k
  · decide

/-- Each p-bit is shared by one endpoint's stored channels, or in mode 1 by a region's two endpoints. -/
theorem length_voters : ∀ m < 8, ∀ g < (tables.bc7 m).NP,
    (voters (tables.bc7 m) g).length = if m = 1 then 6 else (tables.bc7 m).nch := by
  decide

theorem fieldBc7_of_pbits {d : Desc7} {c : Candidate} {e ch : Nat} (he : e < d.ne) (hch : ch < d.nch) (hNP : 0 < d.NP) :
    fieldBc7 d true c e ch = (quant7 d c e ch / 2 : Nat) := by
  rw [fieldBc7, if_pos ⟨he, hch⟩, if_pos rfl, if_pos hNP, Nat.shiftRight_one]

theorem fieldBc7_of_no_pbits {d : Desc7} {c : Candidate} {e ch : Nat} (he : e < d.ne) (hch : ch < d.nch)
    (hNP : d.NP = 0) : fieldBc7 d true c e ch = quant7 d c e ch := by
  rw [fieldBc7, if_pos ⟨he, hch⟩, if_pos rfl, if_neg hNP.not_gt]

/-- Settles O42: the sum of the low bits counts the odd terms; whatever the vote, dropping the low bit of a value and
appending a bit changes it by at most 1. -/
theorem encqPBitVote : Obligations.EncqPBitVote := by
  refine fun c m hm => ⟨fun g hg => ?vote, length_voters m hm, fun e he ch hch hNP => ?near, fun e he ch hch hNP => ?plain⟩
  case vote => rw [pbitBc7, if_pos hg, if_pos rfl, votePb_eq]
  case near =>
    have hpb := pbitBc7_le_one (tables.bc7 m) true c ((tables.bc7 m).pbOf e)
    rw [fieldBc7_of_pbits he hch hNP]
    omega
  case plain =>
    have hprec : (tables.bc7 m).prec ch = if ch < 3 then (tables.bc7 m).CB else (tables.bc7 m).AB := by
      rw [Desc7.prec, if_neg hNP.not_gt, Nat.add_zero]
    rw [fieldBc7_of_no_pbits he hch hNP, quant7, hprec]

end Sys2Proof.Machine
end

section
/-! PROOFS. What the BC7 decoder does with a block of mode `m`, phase by phase (R231 to R241): it gives the pixels of
`refTile7` and raises nothing. -/

-- Elaborated in order: the stack of each thread that waits for another counts against the check's memory limit.
set_option Elab.async false

namespace Sys2Proof.Machine

/-! ## The registers a BC7 block leaves behind -/

/-- The endpoint registers after the p-bit merge (R235); those the mode does not store hold what they held. -/
def endpointFile7 (m : Nat) (f : Bc7Fields) (old : EpFile) : EpFile :=
  let d := tables.bc7 m
  grid 6 4 fun e c =>
    if e < d.ne ∧ c < d.nch then mergePb d f.pb e (cell f.ep e c (0 : Nat) : Nat) else epAt old e c

/-- The p-bit registers; those the mode does not store hold what they held. -/
def pbitFile7 (m : Nat) (f : Bc7Fields) (old : Vector Nat 6) : Vector Nat 6 :=
  tab 6 fun k => if k < (tables.bc7 m).NP then rd f.pb k 0 else rd old k 0

/-- What a BC7 block of mode `m` with the fields `f` makes of the registers. -/
def State.decoded7 (s : State) (m : Nat) (f : Bc7Fields) : State :=
  { s with
    status := .ok, ph := .d7, rsp := some (Response.decoded (refTile7 m f)), pix := refTile7 m f
    mode := m, cur := 128, shape := f.shape, rot := f.rot, idxm := f.idxm
    ep := endpointFile7 m f s.ep, pb := pbitFile7 m f s.pb, ix1 := f.ix1
    ix2 := if 0 < (tables.bc7 m).IP2 then f.ix2 else s.ix2 }

/-! ## The phases that read the block -/

theorem d0Bc7_of_selector7 {s : State} {m : Nat} (h : selector7 s.blk = some m) :
    d0Bc7 s = { s with ph := .d0, mode := m, cur := m + 1 } := by
  simp [d0Bc7, h]

theorem d2Bc7_eq {s : State} {m : Nat} (hm : m < 8) (hmode : s.mode = m) (hcur : s.cur = m + 1) :
    d2Bc7 tables s =
      { s with ph := .d2, cur := bodyStart7 (tables.bc7 m) m, shape := (parse7 tables m s.blk).shape
               rot := (parse7 tables m s.blk).rot, idxm := (parse7 tables m s.blk).idxm } := by
  have hle : ∀ n < 8, bodyStart7 (tables.bc7 n) n ≤ 128 := by decide
  have hbody : m + 1 + totalWidth [(tables.bc7 m).PB, (tables.bc7 m).RB, (tables.bc7 m).IB] =
      bodyStart7 (tables.bc7 m) m := by
    simp only [totalWidth, bodyStart7]
    omega
  have hget : State.getAll .cursorRange [(tables.bc7 m).PB, (tables.bc7 m).RB, (tables.bc7 m).IB] { s with ph := .d2 } =
      (readAll s.blk [(tables.bc7 m).PB, (tables.bc7 m).RB, (tables.bc7 m).IB] (m + 1),
        { s with ph := .d2, cur := bodyStart7 (tables.bc7 m) m }) := by
    rw [State.getAll_of_le _ _ _ (by simp only [hcur, hbody]; exact hle m hm)]
    simp only [hcur, hbody]
  simp only [hmode] at hget
  simp only [d2Bc7, hmode, hget]
  rfl

theorem indexStart7_le : ∀ m < 8, indexStart7 (tables.bc7 m) m ≤ 128 := by decide

theorem getAll_bodyWidths7 {s : State} {m : Nat} (hm : m < 8) (hcur : s.cur = bodyStart7 (tables.bc7 m) m) :
    State.getAll .cursorRange (tables.bc7 m).bodyWidths { s with ph := .d3 } =
      (readAll s.blk (tables.bc7 m).bodyWidths (bodyStart7 (tables.bc7 m) m),
        { s with ph := .d3, cur := indexStart7 (tables.bc7 m) m }) := by
  have hstart : bodyStart7 (tables.bc7 m) m + totalWidth (tables.bc7 m).bodyWidths = indexStart7 (tables.bc7 m) m := rfl
  rw [State.getAll_of_le _ _ _ (by simp only [hcur, hstart]; exact indexStart7_le m hm)]
  simp only [hcur, hstart]

/-- The endpoint registers before the p-bit merge. -/
def fieldFile7 (m : Nat) (f : Bc7Fields) (old : EpFile) : EpFile :=
  grid 6 4 fun e c =>
    if e < (tables.bc7 m).ne ∧ c < (tables.bc7 m).nch then (cell f.ep e c 0 : Nat) else epAt old e c

theorem length_bodyWidths (d : Desc7) : d.bodyWidths.length = d.nch * d.ne + d.NP := by
  simp [Desc7.bodyWidths, length_epOrder]

theorem mul_add_lt_of_lt {n k c e : Nat} (hc : c < n) (he : e < k) : c * k + e < n * k := by
  have := Nat.mul_le_mul_right k (Nat.succ_le_of_lt hc)
  rw [Nat.succ_mul] at this
  omega

theorem readEndpoints7_eq {s : State} {m : Nat} (hm : m < 8) (hmode : s.mode = m)
    (hcur : s.cur = bodyStart7 (tables.bc7 m) m) :
    readEndpoints7 tables s =
      { s with ph := .d3, cur := indexStart7 (tables.bc7 m) m
               ep := fieldFile7 m (parse7 tables m s.blk) s.ep
               pb := pbitFile7 m (parse7 tables m s.blk) s.pb } := by
  have hlen : (readAll s.blk (tables.bc7 m).bodyWidths (bodyStart7 (tables.bc7 m) m)).length =
      (tables.bc7 m).nch * (tables.bc7 m).ne + (tables.bc7 m).NP := by rw [readAll_length, length_bodyWidths]
  have hget := getAll_bodyWidths7 hm hcur
  simp only [hmode] at hget
  simp only [readEndpoints7, hmode, hget]
  refine congrArg₂ (fun v w =>
    ({ s with ph := .d3, cur := indexStart7 (tables.bc7 m) m, mode := m, ep := v, pb := w } : State))
    (grid_congr fun e he c hc => ?ep) (tab_congr fun k hk => ?pb)
  case ep =>
    split
    next hin =>
      have hlt := mul_add_lt_of_lt hin.2 hin.1
      rw [cell_parse7_ep m s.blk he hc, if_pos hin, List.getD_eq_getElem _ _ (by omega),
        List.getElem?_eq_getElem (by omega)]
      rfl
    next => rfl
  case pb =>
    split
    next hin =>
      rw [rd_parse7_pb m s.blk hk, if_pos hin, List.getD_eq_getElem _ _ (by omega),
        List.getD_eq_getElem _ _ (by omega)]
    next => rfl

theorem pbOf_lt {d : Desc7} {e : Nat} (he : e < d.ne) (hNP : 0 < d.NP) : d.pbOf e < d.NP := by
  rw [Desc7.pbOf, Nat.div_lt_iff_lt_mul (by omega), Nat.mul_comm]
  exact Nat.mul_lt_mul_of_pos_left he hNP

/-- The merge looks at the mode's own p-bits alone. -/
theorem mergePb_pbitFile7 {m e : Nat} (hm : m < 8) (f : Bc7Fields) (old : Vector Nat 6) (x : Int)
    (he : e < (tables.bc7 m).ne) :
    mergePb (tables.bc7 m) (pbitFile7 m f old) e x = mergePb (tables.bc7 m) f.pb e x := by
  obtain ⟨-, -, hNP6⟩ := bc7_array_bounds m hm
  by_cases hNP : 0 < (tables.bc7 m).NP
  · have hlt := pbOf_lt he hNP
    rw [mergePb, mergePb, if_pos hNP, if_pos hNP, pbitFile7, rd_tab _ _ _ (by omega), if_pos hlt]
  · rw [mergePb, mergePb, if_neg hNP, if_neg hNP]

theorem mergePbits7_eq {s : State} {m : Nat} {f : Bc7Fields} {oldEp : EpFile} {oldPb : Vector Nat 6} (hm : m < 8)
    (hmode : s.mode = m) (hep : s.ep = fieldFile7 m f oldEp) (hpb : s.pb = pbitFile7 m f oldPb) :
    mergePbits7 tables s = { s with ep := endpointFile7 m f oldEp } := by
  simp only [mergePbits7, hmode]
  refine congrArg (fun v => ({ s with mode := m, ep := v } : State)) (grid_congr fun e he c hc => ?_)
  rw [hep, fieldFile7, epAt, cell_grid _ _ _ _ he hc]
  split
  next hin => rw [hpb, mergePb_pbitFile7 hm f oldPb _ hin.1]
  next => rfl

theorem length_idxWidths7 (d : Desc7) (shape : Nat) :
    (tables.idxWidths7 d shape).length = 16 + if 0 < d.IP2 then 16 else 0 := by
  rw [Tables.idxWidths7]
  split <;> simp

/-- The index arrays take the rest of the block. -/
theorem readIndices7_eq {s : State} {m : Nat} (hm : m < 8) (hmode : s.mode = m)
    (hcur : s.cur = indexStart7 (tables.bc7 m) m) (hshape : s.shape = (parse7 tables m s.blk).shape) :
    readIndices7 tables s =
      { s with ph := .d5, cur := 128, ix1 := (parse7 tables m s.blk).ix1
               ix2 := if 0 < (tables.bc7 m).IP2 then (parse7 tables m s.blk).ix2 else s.ix2 } := by
  have htotal := totalWidth_fields7 hm (parse7_wf m s.blk).1
  have hstart : indexStart7 (tables.bc7 m) m +
      totalWidth (tables.idxWidths7 (tables.bc7 m) (parse7 tables m s.blk).shape) = 128 := by
    rw [map_fst_fields7, totalWidth_append, totalWidth_append, totalWidth_append] at htotal
    simp only [totalWidth] at htotal
    simp only [indexStart7, bodyStart7]
    omega
  have hget : State.getAll .indexOverrun (tables.idxWidths7 (tables.bc7 m) (parse7 tables m s.blk).shape)
      { s with ph := .d5 } =
      (readAll s.blk (tables.idxWidths7 (tables.bc7 m) (parse7 tables m s.blk).shape) (indexStart7 (tables.bc7 m) m),
        { s with ph := .d5, cur := 128 }) := by
    rw [State.getAll_of_le _ _ _ (by simp only [hcur, hstart]; exact le_rfl)]
    simp only [hcur, hstart]
  have hlen := (readAll_length s.blk (tables.idxWidths7 (tables.bc7 m) (parse7 tables m s.blk).shape)
    (indexStart7 (tables.bc7 m) m)).trans (length_idxWidths7 _ _)
  simp only [hmode, hshape] at hget
  simp only [readIndices7, hmode, hshape, hget]
  refine congrArg₂ (fun v w => ({ s with
    ph := .d5, cur := 128, mode := m, shape := (parse7 tables m s.blk).shape, ix1 := v, ix2 := w } : State))
    (vector_ext_rd _ _ 0 fun i hi => ?ix1) (vector_ext_rd _ _ 0 fun i hi => ?ix2)
  case ix1 =>
    rw [rd_tab _ _ _ hi, rd_parse7_ix1 m s.blk hi, List.getD_eq_getElem _ _ (by omega),
      List.getD_eq_getElem _ _ (by omega)]
  case ix2 =>
    rw [rd_tab _ _ _ hi]
    by_cases hdual : 0 < (tables.bc7 m).IP2
    · rw [if_pos hdual] at hlen
      rw [if_pos hdual, if_pos hdual, rd_parse7_ix2 m s.blk hi, if_pos hdual, List.getD_eq_getElem _ _ (by omega),
        List.getD_eq_getElem _ _ (by omega)]
    · rw [if_neg hdual, if_neg hdual]

/-! ## The pixels -/

theorem bc7_CB_pos : ∀ m < 8, (tables.bc7 m).CB ≠ 0 := by decide

/-- Merging the p-bit and unquantizing gives the endpoint value of the reference (R174, R175). -/
theorem unq7_mergePb {m e c : Nat} (hm : m < 8) (f : Bc7Fields) (hc : c < (tables.bc7 m).nch) :
    unq7 (tables.bc7 m) c (mergePb (tables.bc7 m) f.pb e (cell f.ep e c (0 : Nat) : Nat)) = refEndpoint7 m f e c := by
  have hCB := bc7_CB_pos m hm
  have hw : (if c < 3 then (tables.bc7 m).CB else (tables.bc7 m).AB) ≠ 0 := by
    rw [Desc7.nch] at hc
    split_ifs at hc ⊢ <;> omega
  have halpha : ¬ (c = 3 ∧ (tables.bc7 m).AB = 0) := by
    rintro ⟨rfl, hAB⟩
    exact hw hAB
  rw [unq7, if_neg halpha, mergePb, Desc7.prec]
  by_cases hNP : 0 < (tables.bc7 m).NP
  · rw [if_pos hNP, if_pos hNP, refEndpoint7_of_pbit f rfl hw (by omega)]
    congr 2
  · rw [if_neg hNP, if_neg hNP, refEndpoint7_of_no_pbit f rfl hw (by omega)]
    congr 2

theorem unq7_endpointFile7 {m e c : Nat} (hm : m < 8) (f : Bc7Fields) (old : EpFile) (he : e < (tables.bc7 m).ne)
    (hc : c < 4) : unq7 (tables.bc7 m) c (epAt (endpointFile7 m f old) e c) = refEndpoint7 m f e c := by
  obtain ⟨hne, -, -⟩ := bc7_array_bounds m hm
  by_cases hnch : c < (tables.bc7 m).nch
  · rw [epAt, endpointFile7, cell_grid _ _ _ _ (by omega) hc, if_pos ⟨he, hnch⟩, unq7_mergePb hm f hnch]
  · obtain ⟨rfl, hAB⟩ : c = 3 ∧ (tables.bc7 m).AB = 0 := by
      rw [Desc7.nch] at hnch
      split_ifs at hnch <;> omega
    rw [refEndpoint7_no_alpha f hAB, unq7, if_pos ⟨rfl, hAB⟩]

theorem rotChan_lt (rot : Nat) : rotChan rot < 4 := by
  rw [rotChan]
  split_ifs <;> decide

/-- A rotated sample depends on its four channels alone. -/
theorem rotate_congr {v w : Nat → Int} (rot : Nat) (h : ∀ c < 4, v c = w c) {c : Nat} (hc : c < 4) :
    rotate rot v c = rotate rot w c := by
  rw [rotate, rotate, h _ (rotChan_lt rot), h 3 (by decide), h c hc]

theorem pack7_congr {v w : Nat → Int} (h : ∀ c < 4, v c = w c) : pack7 v = pack7 w := by
  rw [pack7, pack7, h 0 (by decide), h 1 (by decide), h 2 (by decide), h 3 (by decide)]

theorem refChannel7_eq_pal7 (m : Nat) (f : Bc7Fields) (i c : Nat) :
    refChannel7 m f i c =
      if 0 < (tables.bc7 m).IP2 ∧ (c < 3 ↔ f.idxm = 1) then
        pal7 tables (refEndpoint7 m f) (tables.region (tables.bc7 m).P f.shape i) (tables.bc7 m).IP2 (rd f.ix2 i 0) c
      else pal7 tables (refEndpoint7 m f) (tables.region (tables.bc7 m).P f.shape i) (tables.bc7 m).IP
        (rd f.ix1 i 0) c := by
  simp only [refChannel7, pal7, decide_eq_true_eq, Nat.pos_iff_ne_zero]
  split <;> rfl

/-- A palette entry depends on the two endpoints of its region alone. -/
theorem pal7_congr (T : Tables) {E F : Nat → Nat → Int} {r c : Nat} (ip j : Nat)
    (h : ∀ e < 2 * (r + 1), E e c = F e c) : pal7 T E r ip j c = pal7 T F r ip j c := by
  rw [pal7, pal7, h (2 * r) (by omega), h (2 * r + 1) (by omega)]

/-- A channel before the rotation, from the registers the earlier phases leave. -/
theorem interpPixel7_eq {s : State} {m : Nat} {f : Bc7Fields} {old : EpFile} (hm : m < 8) (hmode : s.mode = m)
    (hshape : s.shape = f.shape) (hlt : f.shape < 64) (hidxm : s.idxm = f.idxm) (hix1 : s.ix1 = f.ix1)
    (hix2 : 0 < (tables.bc7 m).IP2 → s.ix2 = f.ix2) (hep : s.ep = endpointFile7 m f old) {i c : Nat} (hi : i < 16)
    (hc : c < 4) : interpPixel7 tables s i c = refChannel7 m f i c := by
  obtain ⟨hP, -, -⟩ := bc7_index_bounds m hm
  have hr := region_lt (tables.bc7 m).P f.shape i (by omega) hlt hi
  have hpal (ip j : Nat) : pal7 tables (fun e c => unq7 (tables.bc7 m) c (epAt s.ep e c))
      (tables.region (tables.bc7 m).P f.shape i) ip j c =
      pal7 tables (refEndpoint7 m f) (tables.region (tables.bc7 m).P f.shape i) ip j c :=
    pal7_congr _ _ _ fun e he => by
      rw [hep, unq7_endpointFile7 hm f old (by rw [Desc7.ne]; omega) hc]
  simp only [interpPixel7, hmode, hshape, hidxm, hix1, hpal, refChannel7_eq_pal7, Desc7.cp, Desc7.ap, colourIx, alphaIx]
  by_cases hdual : 0 < (tables.bc7 m).IP2
  · by_cases hc3 : c < 3 <;> by_cases hid : f.idxm = 1 <;> simp [hdual, hc3, hid, hix2]
  · simp [hdual]

theorem d6Bc7_eq {s : State} {m : Nat} {f : Bc7Fields} {old : EpFile} (hm : m < 8) (hmode : s.mode = m)
    (hshape : s.shape = f.shape) (hlt : f.shape < 64) (hrot : s.rot = f.rot) (hidxm : s.idxm = f.idxm)
    (hix1 : s.ix1 = f.ix1) (hix2 : 0 < (tables.bc7 m).IP2 → s.ix2 = f.ix2) (hep : s.ep = endpointFile7 m f old) :
    d6Bc7 tables s = { s with ph := .d6, pix := refTile7 m f } := by
  unfold d6Bc7 refTile7
  refine congrArg (fun p => ({ s with ph := .d6, pix := p } : State))
    (tab_congr fun i hi => pack7_congr fun c hc => ?_)
  rw [hrot]
  exact rotate_congr _ (fun c hc => interpPixel7_eq hm hmode hshape hlt hidxm hix1 hix2 hep hi hc) hc

/-! ## The whole decode -/

theorem parse7_shape_lt_64 {m : Nat} (hm : m < 8) (B : Block) : (parse7 tables m B).shape < 64 := by
  obtain ⟨-, hPB, -⟩ := bc7_index_bounds m hm
  exact (parse7_wf m B).1.trans_le hPB

/-- A block whose selector is that of mode `m` decodes to the pixels of its fields, with every register R22 says the
decoder writes. -/
theorem decodeBc7_of_selector7 {s : State} {m : Nat} (h : selector7 s.blk = some m) :
    decodeBc7 tables s = s.decoded7 m (parse7 tables m s.blk) := by
  have hm := selector7_lt s.blk h
  rw [decodeBc7]
  refine Eq.trans (runPhases_cons_eq (d0Bc7_of_selector7 h) (by simp)) ?_
  refine Eq.trans (runPhases_cons_of_ne _ _ _ (by simp [d1Bc7])) ?_
  refine Eq.trans (runPhases_cons_eq (d2Bc7_eq hm rfl rfl) (by simp)) ?_
  refine Eq.trans (runPhases_cons_eq (readEndpoints7_eq hm rfl rfl) (by simp)) ?_
  refine Eq.trans (runPhases_cons_eq (mergePbits7_eq hm rfl rfl rfl) (by simp)) ?_
  refine Eq.trans (runPhases_cons_of_ne _ _ _ (by simp [d4Bc7])) ?_
  refine Eq.trans (runPhases_cons_eq (readIndices7_eq hm rfl rfl rfl) (by simp)) ?_
  refine Eq.trans (runPhases_cons_eq (checkLength_of_eq rfl) (by simp)) ?_
  refine Eq.trans (runPhases_cons_eq (d6Bc7_eq hm rfl rfl (parse7_shape_lt_64 hm s.blk) rfl rfl rfl
    (fun hdual => if_pos hdual) rfl) (by simp)) ?_
  exact runPhases_cons_of_ne _ _ _ (by simp)

end Sys2Proof.Machine
end

section
/-! PROOFS. Running an encoded block (R230, R250): the tile it completes with, what it leaves alone, and the reserved
selectors (R116, R302). -/

-- Elaborated in order: the stack of each thread that waits for another counts against the check's memory limit.
set_option Elab.async false

namespace Sys2Proof.Machine

/-! ## Blocks as they stand in the buffer -/

/-- A decoded BC7 block is run as the word it was decoded from. -/
theorem exec_decode_bc7 (B : Block) (s : State) :
    exec (decode (.bc7 B)) s = .next (decodeBc7 tables { s with blk := B }) := by
  have henc := encode_decode_bc7 B
  rcases h : selector7 B with - | m
  · rw [decode_bc7_of_selector7_none h] at henc ⊢
    rw [exec, execBc7Reserved, Code.bc7.inj henc]
  · lift m to Fin 8 using selector7_lt B h
    rw [decode_bc7_of_selector7 h, exec_bc7, encode7_parse7 h]

/-- A decoded BC6H block is run as the word it was decoded from. -/
theorem exec_decode_bc6h (B : Block) (s : State) :
    exec (decode (.bc6h B)) s = .next (decodeBc6h tables { s with blk := B }) := by
  have henc := encode_decode_bc6h B
  obtain ⟨k, hsel, h⟩ | ⟨-, h⟩ | ⟨-, h⟩ | ⟨-, h⟩ | ⟨-, h⟩ := decode_bc6h_cases B <;> rw [h] at henc ⊢
  · rw [exec_bc6h, encode6_parse6 hsel]
  · rw [exec, execBc6hReserved13, Code.bc6h.inj henc]
  · rw [exec, execBc6hReserved17, Code.bc6h.inj henc]
  · rw [exec, execBc6hReserved1B, Code.bc6h.inj henc]
  · rw [exec, execBc6hReserved1F, Code.bc6h.inj henc]

/-! ## The two ways a decode goes -/

theorem decodeBc7_of_selector7_none {s : State} (h : selector7 s.blk = none) :
    decodeBc7 tables s = s.raise .modeSelector := by
  have hd0 : d0Bc7 s = s.raise .modeSelector := by
    simp only [d0Bc7, h]
    rfl
  rw [decodeBc7, runPhases_cons_of_fault _ _ _ (by simp [hd0]), hd0]

theorem decodeBc6h_of_selector6_none {s : State} (h : selector6 tables s.blk = none) :
    decodeBc6h tables s = s.raise .modeSelector := by
  have hd1 : d1Bc6h tables { s with ph := .d0 } = s.raise .modeSelector := by
    simp only [d1Bc6h, h]
    rfl
  rw [decodeBc6h, runPhases_cons_eq (d0Bc6h_eq s) (by simp), runPhases_cons_of_fault _ _ _ (by simp [hd1]), hd1]

/-- What a BC6H block of mode `mode` with the fields `f` makes of the registers. -/
def State.decoded6 (s : State) (mode : Nat) (f : Bc6hFields) : State :=
  { s with
    status := .ok, ph := .d7, rsp := some (Response.decoded (refTile6 mode (sgOf s.fmt) f))
    pix := refTile6 mode (sgOf s.fmt) f, mode := mode, cur := 128, shape := f.shape
    ep := endpointFile6 mode (sgOf s.fmt) f, ix1 := f.ix }

theorem decodeBc6h_eq_decoded6 {s : State} {k : Fin 14} (h : selector6 tables s.blk = some (k.val + 1)) :
    decodeBc6h tables s = s.decoded6 (k + 1) (parse6 tables (k + 1) s.blk) := by
  rw [decodeBc6h_of_selector6 h]
  rfl

/-- A BC7 decode completes with the tile of its block, or finds no mode. -/
theorem decodeBc7_cases (s : State) :
    (∃ m : Fin 8, selector7 s.blk = some m.val ∧ decodeBc7 tables s = s.decoded7 m (parse7 tables m s.blk)) ∨
    (selector7 s.blk = none ∧ decodeBc7 tables s = s.raise .modeSelector) := by
  rcases h : selector7 s.blk with - | m
  · exact .inr ⟨rfl, decodeBc7_of_selector7_none h⟩
  · exact .inl ⟨⟨m, selector7_lt s.blk h⟩, rfl, decodeBc7_of_selector7 h⟩

/-- A BC6H decode completes with the tile of its block, or finds no mode. -/
theorem decodeBc6h_cases (s : State) :
    (∃ k : Fin 14, selector6 tables s.blk = some (k.val + 1) ∧
      decodeBc6h tables s = s.decoded6 (k + 1) (parse6 tables (k + 1) s.blk)) ∨
    (selector6 tables s.blk = none ∧ decodeBc6h tables s = s.raise .modeSelector) := by
  rcases h : selector6 tables s.blk with - | mode
  · exact .inr ⟨rfl, decodeBc6h_of_selector6_none h⟩
  · obtain ⟨k, rfl⟩ := exists_of_selector6_eq_some h
    exact .inl ⟨k, rfl, decodeBc6h_eq_decoded6 h⟩

/-! ## Well-formed blocks -/

theorem decodeBc7_holding {B : Block} {m : Nat} (h : selector7 B = some m) (s : State) :
    decodeBc7 tables { s with blk := B } = { s with blk := B }.decoded7 m (parse7 tables m B) :=
  decodeBc7_of_selector7 (s := { s with blk := B }) h

theorem decodeBc6h_holding {B : Block} {k : Fin 14} (h : selector6 tables B = some (k.val + 1)) (s : State) :
    decodeBc6h tables { s with blk := B } = { s with blk := B }.decoded6 (k + 1) (parse6 tables (k + 1) B) :=
  decodeBc6h_eq_decoded6 (s := { s with blk := B }) h

/-- Running a BC7 block, well formed or not: what its word reads as. -/
theorem exec_bc7_eq (m : Fin 8) (f : Bc7Fields) (s : State) :
    exec (.bc7 m f) s = .next ({ s with blk := encode7 m f }.decoded7 m (parse7 tables m (encode7 m f))) := by
  rw [exec_bc7, decodeBc7_holding (selector7_encode7 m f)]

theorem exec_bc6h_eq (k : Fin 14) (f : Bc6hFields) (s : State) :
    exec (.bc6h k f) s =
      .next ({ s with blk := encode6 (k + 1) f }.decoded6 (k + 1) (parse6 tables (k + 1) (encode6 (k + 1) f))) := by
  rw [exec_bc6h, decodeBc6h_holding (selector6_encode6 k f)]

/-- The word a decode was given stays in the block buffer. -/
theorem State.decoded7_blk (s : State) (B : Block) (m : Nat) (f : Bc7Fields) :
    ({ s with blk := B }.decoded7 m f).blk = B := rfl

theorem State.decoded6_blk (s : State) (B : Block) (mode : Nat) (f : Bc6hFields) :
    ({ s with blk := B }.decoded6 mode f).blk = B := rfl

theorem epAt_endpointFile7 {m e c : Nat} (f : Bc7Fields) (old : EpFile) (he6 : e < 6) (hc4 : c < 4) :
    epAt (endpointFile7 m f old) e c =
      if e < (tables.bc7 m).ne ∧ c < (tables.bc7 m).nch then
        mergePb (tables.bc7 m) f.pb e (cell f.ep e c (0 : Nat) : Nat) else epAt old e c :=
  epAt_grid _ he6 hc4

theorem epAt_endpointFile6_eq {mode e c : Nat} (sg : Bool) (f : Bc6hFields) (he : e < 6) (hc : c < 4) :
    epAt (endpointFile6 mode sg f) e c =
      if e < (tables.bc6h mode).ne ∧ c < 3 then refEndpoint6 mode sg f e c else 0 :=
  epAt_grid _ he hc

theorem rd_pbitFile7 {m k : Nat} (f : Bc7Fields) (old : Vector Nat 6) (hk : k < 6) :
    rd (pbitFile7 m f old) k 0 = if k < (tables.bc7 m).NP then rd f.pb k 0 else rd old k 0 :=
  rd_tab _ _ _ hk

/-- Settles O30: the word of a well-formed block reads as its fields, and the phases make the reference's pixels of
them. -/
theorem bc7BlocksDecodeToTheirTile : Obligations.Bc7BlocksDecodeToTheirTile := by
  intro m f s hf
  rw [wf_bc7] at hf
  obtain ⟨hne, hnch, hNP⟩ := bc7_array_bounds m m.isLt
  refine ⟨{ s with blk := encode7 m f }.decoded7 m f, by rw [exec_bc7_eq, parse7_encode7 m.isLt hf], ?_⟩
  refine ⟨rfl, rfl, rfl, rfl, rfl, State.decoded7_blk _ _ _ _, rfl, rfl, rfl, rfl,
    fun e he c hc => ?ep, fun k hk => ?pb, rfl, fun hdual => if_pos hdual⟩
  case ep => exact (epAt_endpointFile7 f s.ep (by omega) (by omega)).trans (if_pos ⟨he, hc⟩)
  case pb => exact (rd_pbitFile7 f s.pb (by omega)).trans (if_pos hk)

/-- Settles O31, as O30. -/
theorem bc6hBlocksDecodeToTheirTile : Obligations.Bc6hBlocksDecodeToTheirTile := by
  intro k f s hf
  rw [wf_bc6h] at hf
  refine ⟨{ s with blk := encode6 (k + 1) f }.decoded6 (k + 1) f, by rw [exec_bc6h_eq, parse6_encode6 k hf], ?_⟩
  exact ⟨rfl, rfl, rfl, rfl, rfl, State.decoded6_blk _ _ _ _, rfl, rfl,
    fun e he c hc => epAt_endpointFile6_eq (sgOf s.fmt) f he hc, rfl⟩

/-! ## Reserved selectors -/

/-- Settles O33: no mode has the selector, so the first phase that looks at it raises, and nothing else is written. -/
theorem reservedSelectorsRaise : Obligations.ReservedSelectorsRaise := by
  intro s
  have h7 (B : Block) (h : selector7 B = none) :
      decodeBc7 tables { s with blk := B } = { s with blk := B }.raise .modeSelector := decodeBc7_of_selector7_none h
  have h6 (B : Block) (h : rdbits B 0 5 ∈ reservedSelectors) :
      decodeBc6h tables { s with blk := B } = { s with blk := B }.raise .modeSelector :=
    decodeBc6h_of_selector6_none ((selector6_eq_none_iff B).mpr h)
  have hword (r : BitVec 123) (x : BitVec 5) (hx : x.toNat ∈ reservedSelectors) :
      rdbits (r ++ x) 0 5 ∈ reservedSelectors := bc6h_reserved_decode r x ▸ hx
  refine ⟨fun r => congrArg _ (h7 _ (selector7_reserved r)),
    fun r => ⟨congrArg _ (h6 _ (hword r _ (by decide))), congrArg _ (h6 _ (hword r _ (by decide))),
      congrArg _ (h6 _ (hword r _ (by decide))), congrArg _ (h6 _ (hword r _ (by decide)))⟩,
    fun B hB => ?bc7, fun B hB => ?bc6h⟩
  case bc7 =>
    have hlow : rdbits B 0 8 = 0 := by
      rw [← toNat_and_two_pow_sub_one, Nat.and_two_pow_sub_one_eq_mod]
      simpa [blockByte] using congrArg BitVec.toNat hB
    rw [exec_decode_bc7, h7 B ((selector7_eq_none_iff B).mpr (by simpa using (rdbits_eq_zero_iff B 0 8).mp hlow))]
    rfl
  case bc6h =>
    rw [exec_decode_bc6h, h6 B hB]
    rfl

/-! ## Frames -/

/-- Settles O34: the registers a decode writes are those of `State.decoded7` and `State.decoded6`. -/
theorem blockFrames : Obligations.BlockFrames := by
  intro i s t hexec
  refine ⟨?both, ?bc7, ?bc6h⟩
  case both =>
    rintro (⟨m, f, rfl⟩ | ⟨k, f, rfl⟩)
    · obtain rfl := Host.Outcome.next.inj ((exec_bc7_eq m f s).symm.trans hexec)
      exact ⟨rfl, rfl, rfl, rfl, rfl, rfl, rfl⟩
    · obtain rfl := Host.Outcome.next.inj ((exec_bc6h_eq k f s).symm.trans hexec)
      exact ⟨rfl, rfl, rfl, rfl, rfl, rfl, rfl⟩
  case bc7 =>
    rintro m f rfl -
    obtain rfl := Host.Outcome.next.inj ((exec_bc7_eq m f s).symm.trans hexec)
    refine ⟨fun e he c hc hout => ?_, fun k hk hout => ?_, fun hsingle => if_neg hsingle.not_gt⟩
    · exact (epAt_endpointFile7 _ s.ep he hc).trans (if_neg (by omega))
    · exact (rd_pbitFile7 _ s.pb hk).trans (if_neg (by omega))
  case bc6h =>
    rintro k f rfl
    obtain rfl := Host.Outcome.next.inj ((exec_bc6h_eq k f s).symm.trans hexec)
    exact ⟨rfl, rfl, rfl, rfl⟩

end Sys2Proof.Machine
end

section
/-! PROOFS. The step (R33, R65, R330 to R340) and what running a command or a latched block amounts to. -/

-- Elaborated in order: the stack of each thread that waits for another counts against the check's memory limit.
set_option Elab.async false

namespace Sys2Proof.Machine

/-! ## One step -/

theorem step_of_presents {s : State} {c : Cmd} (h : s.Presents c) : step s = exec (decode (.cmd c)) s.afterInput := by
  obtain ⟨hbusy, hrsp, hrst, hcmd⟩ := h
  simp [step, stepWith, fetch, hbusy, hrsp, hrst, hcmd]

theorem step_of_waiting {s : State} {i : Instr} (hbusy : s.busy = true) (hrsp : s.rsp = none) (hph : s.ph = .d0)
    (hrst : s.input.rst = false) (hi : decodeLatched s.fmt s.blk = some i) : step s = exec i s.afterInput := by
  simp [step, stepWith, fetch, hbusy, hrsp, hph, hrst, hi]

theorem decodeLatched_bc7 {fmt : BitVec 2} (B : Block) (h : fmt = 0) :
    decodeLatched fmt B = some (decode (.bc7 B)) := if_pos h

theorem decodeLatched_bc6h {fmt : BitVec 2} (B : Block) (h0 : fmt ≠ 0) (h3 : fmt ≠ 3) :
    decodeLatched fmt B = some (decode (.bc6h B)) := by
  rw [decodeLatched, if_neg h0, if_neg h3]

theorem step_of_held {s : State} (hrsp : s.rsp ≠ none) (hrst : s.input.rst = false) :
    step s = .next (if s.input.rspReady then s.afterInput.takeResponse else s.afterInput) := by
  obtain ⟨r, hr⟩ := Option.ne_none_iff_exists'.mp hrsp
  simp [step, stepWith, fetch, hr, hrst]

theorem step_of_rst {s : State} (hrst : s.input.rst = true) : step s = .next s.afterInput.resetPort := if_pos hrst

/-- Settles O51. -/
theorem stepRunsTheDecodedInstruction : Obligations.StepRunsTheDecodedInstruction := by
  refine ⟨fun s c h => step_of_presents h, fun s hbusy hrsp hph hrst => ⟨fun h0 => ?_, fun h12 => ?_⟩⟩
  · exact step_of_waiting hbusy hrsp hph hrst (decodeLatched_bc7 _ h0)
  · have h0 : s.fmt ≠ 0 := by rcases h12 with h | h <;> rw [h] <;> decide
    have h3 : s.fmt ≠ 3 := by rcases h12 with h | h <;> rw [h] <;> decide
    exact step_of_waiting hbusy hrsp hph hrst (decodeLatched_bc6h _ h0 h3)

/-- Settles O52: a busy block fetches nothing from the command port. -/
theorem busyIgnoresCommands : Obligations.BusyIgnoresCommands := by
  intro s rst rdy c rest hbusy
  refine ⟨by rw [State.cmdReady, hbusy]; rfl, ?_⟩
  simp [step, stepWith, fetch, State.input, State.afterInput, hbusy]

/-- Settles O53. -/
theorem responseStaysUntilTaken : Obligations.ResponseStaysUntilTaken := by
  intro s r hrsp hrst
  rw [step_of_held (by simp [hrsp]) hrst]
  exact ⟨fun hready => by rw [hready]; rfl, fun hready => by rw [hready]; rfl⟩

/-- Settles O54. -/
theorem resetAbandonsTheOperation : Obligations.ResetAbandonsTheOperation := fun _ hrst =>
  ⟨_, step_of_rst hrst, rfl, rfl, rfl, rfl⟩

theorem reset_coherent : State.reset.Coherent :=
  ⟨by decide, by decide, by decide, fun _ h => nomatch h⟩

theorem reset_inRange : State.reset.InRange :=
  ⟨by decide, by decide, by decide, by decide, by decide, by decide +kernel, by decide, by decide, by decide, by decide,
    by decide⟩

/-- Settles O56. -/
theorem resetIsCoherent : Obligations.ResetIsCoherent := ⟨reset_coherent, reset_inRange⟩

/-! ## Commands -/

/-- Settles O35. -/
theorem decIsAccepted : Obligations.DecIsAccepted := fun _ _ => ⟨rfl, rfl, rfl⟩

theorem decode_cmd_of_reserved {c : Cmd} (h : c.op = 3 ∨ c.fmt = 3) :
    decode (.cmd c) = .cmdReservedOp c.fmt ∧ c.op = 3 ∨ decode (.cmd c) = .cmdReservedFmt c.op ∧ c.fmt = 3 := by
  by_cases hop : c.op = 3
  · exact .inl ⟨if_pos hop, hop⟩
  · have hfmt := h.resolve_left hop
    exact .inr ⟨by rw [decode, decodeCmd, if_neg hop, if_pos hfmt], hfmt⟩

theorem decode_cmd_of_dec {c : Cmd} (hop : c.op = 0) (hfmt : c.fmt ≠ 3) :
    decode (.cmd c) = .decBc7 c.blk ∧ c.fmt = 0 ∨ decode (.cmd c) = .decBc6hUnsigned c.blk ∧ c.fmt = 1 ∨
      decode (.cmd c) = .decBc6hSigned c.blk ∧ c.fmt = 2 := by
  have hfmts : ∀ x : BitVec 2, x ≠ 3 → x = 0 ∨ x = 1 ∨ x = 2 := by decide
  obtain h | h | h := hfmts c.fmt hfmt <;> simp [decode, decodeCmd, hop, h]

theorem exec_decode_cmd_of_dec {c : Cmd} (hop : c.op = 0) (hfmt : c.fmt ≠ 3) (s : State) :
    exec (decode (.cmd c)) s = .next (s.acceptDec c.fmt c.blk) := by
  obtain ⟨h, hf⟩ | ⟨h, hf⟩ | ⟨h, hf⟩ := decode_cmd_of_dec hop hfmt <;> rw [h, hf] <;> rfl

theorem exec_decode_cmd_of_reserved {c : Cmd} (h : c.op = 3 ∨ c.fmt = 3) (s : State) :
    exec (decode (.cmd c)) s = .next (s.acceptBad c.op c.fmt) := by
  obtain ⟨h, hop⟩ | ⟨h, hfmt⟩ := decode_cmd_of_reserved h
  · rw [h, (exec_reserved c.fmt s).1, hop]
  · rw [h, (exec_reserved c.op s).2, hfmt]

theorem decode_cmd_of_enc {c : Cmd} (hop0 : c.op ≠ 0) (hop3 : c.op ≠ 3) (hfmt : c.fmt ≠ 3) :
    ∃ (q : Bool) (fmt : Fin 3), c.op = encOp q ∧ c.fmt = BitVec.ofNat 2 fmt ∧
      decode (.cmd c) = encInstr q fmt c.cand := by
  have hops : ∀ x : BitVec 2, x ≠ 0 → x ≠ 3 → ∃ q : Bool, x = encOp q := by decide
  have hfmts : ∀ x : BitVec 2, x ≠ 3 → ∃ fmt : Fin 3, x = BitVec.ofNat 2 fmt := by decide
  obtain ⟨q, hq⟩ := hops c.op hop0 hop3
  obtain ⟨fmt, hf⟩ := hfmts c.fmt hfmt
  refine ⟨q, fmt, hq, hf, ?_⟩
  cases q <;> fin_cases fmt <;> simp [decode, decodeCmd, hq, hf, encOp, encInstr]

/-- The three kinds of command, and what running each amounts to. -/
theorem exec_decode_cmd_cases (c : Cmd) (s : State) :
    ((c.op = 3 ∨ c.fmt = 3) ∧ exec (decode (.cmd c)) s = .next (s.acceptBad c.op c.fmt)) ∨
    (c.op = 0 ∧ c.fmt ≠ 3 ∧ exec (decode (.cmd c)) s = .next (s.acceptDec c.fmt c.blk)) ∨
    (∃ (q : Bool) (fmt : Fin 3), c.op = encOp q ∧ c.fmt = BitVec.ofNat 2 fmt ∧
      decode (.cmd c) = encInstr q fmt c.cand) := by
  by_cases hres : c.op = 3 ∨ c.fmt = 3
  · exact .inl ⟨hres, exec_decode_cmd_of_reserved hres s⟩
  obtain ⟨hop3, hfmt⟩ := not_or.mp hres
  by_cases hop : c.op = 0
  · exact .inr (.inl ⟨hop, hfmt, exec_decode_cmd_of_dec hop hfmt s⟩)
  · exact .inr (.inr (decode_cmd_of_enc hop hop3 hfmt))

/-- Settles O47: the decoder tests `op` and `fmt` before anything else, and the refusal is the acceptance and the
raise. -/
theorem reservedCommandsAreRefused : Obligations.ReservedCommandsAreRefused := by
  refine ⟨fun c => ⟨fun h => (decode_cmd_of_reserved h).imp And.left And.left, fun h => ?_⟩, fun s x => ⟨rfl, rfl⟩⟩
  by_contra hres
  obtain ⟨hop3, hfmt⟩ := not_or.mp hres
  by_cases hop : c.op = 0
  · obtain ⟨hd, -⟩ | ⟨hd, -⟩ | ⟨hd, -⟩ := decode_cmd_of_dec hop hfmt <;> simp [hd] at h
  · obtain ⟨q, fmt, -, -, hd⟩ := decode_cmd_of_enc hop hop3 hfmt
    rw [hd] at h
    cases q <;> fin_cases fmt <;> simp [encInstr] at h

/-! ## Latched blocks -/

/-- The decode of the latched block under the latched format. -/
def State.decodeBlock (s : State) : State := if s.fmt = 0 then decodeBc7 tables s else decodeBc6h tables s

theorem exec_decodeLatched {s : State} {i : Instr} (h : decodeLatched s.fmt s.blk = some i) :
    exec i s = .next s.decodeBlock := by
  by_cases h0 : s.fmt = 0
  · rw [decodeLatched_bc7 _ h0] at h
    rw [← Option.some.inj h, exec_decode_bc7, State.decodeBlock, if_pos h0]
  · have h3 : s.fmt ≠ 3 := fun h3 => by simp [decodeLatched, h3] at h
    rw [decodeLatched_bc6h _ h0 h3] at h
    rw [← Option.some.inj h, exec_decode_bc6h, State.decodeBlock, if_neg h0]

/-- Everything the decode of a latched block does, with the response of the reference. -/
theorem State.decodeBlock_cases (s : State) :
    (s.decodeBlock = s.raise .modeSelector ∧ refDecode s.fmt s.blk = Response.statusOnly .modeSelector) ∨
    (∃ m : Fin 8, s.decodeBlock = s.decoded7 m (parse7 tables m s.blk) ∧
      refDecode s.fmt s.blk = Response.decoded (refTile7 m (parse7 tables m s.blk))) ∨
    (∃ k : Fin 14, s.decodeBlock = s.decoded6 (k + 1) (parse6 tables (k + 1) s.blk) ∧
      refDecode s.fmt s.blk = Response.decoded (refTile6 (k + 1) (sgOf s.fmt) (parse6 tables (k + 1) s.blk))) := by
  by_cases h0 : s.fmt = 0
  · rw [State.decodeBlock, refDecode, if_pos h0, if_pos h0]
    obtain ⟨m, hsel, h⟩ | ⟨hsel, h⟩ := decodeBc7_cases s
    · exact .inr (.inl ⟨m, h, by rw [hsel]⟩)
    · exact .inl ⟨h, by rw [hsel]⟩
  · rw [State.decodeBlock, refDecode, if_neg h0, if_neg h0]
    obtain ⟨k, hsel, h⟩ | ⟨hsel, h⟩ := decodeBc6h_cases s
    · exact .inr (.inr ⟨k, h, by rw [hsel]⟩)
    · exact .inl ⟨h, by rw [hsel]⟩

/-! ### What an interpreted block answers -/

@[simp] theorem State.decoded7_op (s : State) (m : Nat) (f : Bc7Fields) : (s.decoded7 m f).op = s.op := by
  simp only [State.decoded7]
@[simp] theorem State.decoded7_status (s : State) (m : Nat) (f : Bc7Fields) : (s.decoded7 m f).status = .ok := rfl
@[simp] theorem State.decoded7_ph (s : State) (m : Nat) (f : Bc7Fields) : (s.decoded7 m f).ph = .d7 := rfl
@[simp] theorem State.decoded7_busy (s : State) (m : Nat) (f : Bc7Fields) : (s.decoded7 m f).busy = s.busy := by
  simp only [State.decoded7]
@[simp] theorem State.decoded7_rsp (s : State) (m : Nat) (f : Bc7Fields) :
    (s.decoded7 m f).rsp = some (Response.decoded (refTile7 m f)) := rfl

@[simp] theorem State.decoded6_op (s : State) (m : Nat) (f : Bc6hFields) : (s.decoded6 m f).op = s.op := by
  simp only [State.decoded6]
@[simp] theorem State.decoded6_status (s : State) (m : Nat) (f : Bc6hFields) : (s.decoded6 m f).status = .ok := rfl
@[simp] theorem State.decoded6_ph (s : State) (m : Nat) (f : Bc6hFields) : (s.decoded6 m f).ph = .d7 := rfl
@[simp] theorem State.decoded6_busy (s : State) (m : Nat) (f : Bc6hFields) : (s.decoded6 m f).busy = s.busy := by
  simp only [State.decoded6]
@[simp] theorem State.decoded6_rsp (s : State) (m : Nat) (f : Bc6hFields) :
    (s.decoded6 m f).rsp = some (Response.decoded (refTile6 m (sgOf s.fmt) f)) := rfl

theorem State.decodeBlock_response (s : State) :
    s.decodeBlock.rsp = some (refDecode s.fmt s.blk) ∧ s.decodeBlock.status = (refDecode s.fmt s.blk).status ∧
      s.decodeBlock.busy = s.busy := by
  obtain ⟨h, href⟩ | ⟨m, h, href⟩ | ⟨k, h, href⟩ := s.decodeBlock_cases <;>
    simp [h, href, Response.statusOnly, Response.decoded]

/-- A waiting `DEC` of a legal format is interpreted by the next step. -/
theorem step_acceptDec {s : State} {fmt : BitVec 2} (B : Block) (hfmt : fmt ≠ 3) (hrst : s.input.rst = false) :
    step (s.acceptDec fmt B) = .next (s.acceptDec fmt B).afterInput.decodeBlock := by
  obtain ⟨i, hi⟩ : ∃ i, decodeLatched fmt B = some i := by
    by_cases h0 : fmt = 0
    · exact ⟨_, decodeLatched_bc7 B h0⟩
    · exact ⟨_, decodeLatched_bc6h B h0 hfmt⟩
  rw [step_of_waiting (s := s.acceptDec fmt B) rfl rfl rfl hrst hi]
  exact exec_decodeLatched (s := (s.acceptDec fmt B).afterInput) hi

/-- The two steps of a presented `DEC`. -/
theorem step_step_of_dec {s : State} {c : Cmd} (h : s.Presents c) (hop : c.op = 0) (hfmt : c.fmt ≠ 3)
    (hrst : s.afterInput.input.rst = false) :
    step s = .next (s.afterInput.acceptDec c.fmt c.blk) ∧
      step (s.afterInput.acceptDec c.fmt c.blk) = .next (s.afterInput.acceptDec c.fmt c.blk).afterInput.decodeBlock := by
  refine ⟨?_, step_acceptDec c.blk hfmt hrst⟩
  rw [step_of_presents h, exec_decode_cmd_of_dec hop hfmt]

/-- Settles O36: the first step accepts, the second decodes the block that was latched. -/
theorem decAnswersTheReference : Obligations.DecAnswersTheReference := by
  intro s c hpres hop hfmt hrst
  obtain ⟨h1, h2⟩ := step_step_of_dec hpres hop hfmt hrst
  exact ⟨_, _, h1, h2, State.decodeBlock_response _⟩

end Sys2Proof.Machine
end

section
/-! PROOFS. How operations end over arbitrary tables (R241, R259, R287, R337), what an `ENC*` leaves alone, and the
refusal of a candidate (R275, R308). -/

-- Elaborated in order: the stack of each thread that waits for another counts against the check's memory limit.
set_option Elab.async false

namespace Sys2Proof.Machine

/-! ## How a decode ends -/

/-- The codes a decode can raise (R302 to R305). -/
def decodeFaults : List Status := [.modeSelector, .headerCount, .indexOverrun, .cursorRange]

/-- A fault of this state is one of a decode, with its status alone in the response. -/
def State.DecodeFault (s : State) : Prop :=
  s.ph = .fault → s.status ∈ decodeFaults ∧ s.rsp = some (Response.statusOnly s.status)

theorem decodeFault_of_ph {s : State} (p : Phase) (hph : s.ph = p := by rfl) (hp : p ≠ .fault := by decide) :
    s.DecodeFault :=
  fun h => absurd (hph.symm.trans h) hp

theorem decodeFault_raise (s : State) {c : Status} (hc : c ∈ decodeFaults := by decide) : (s.raise c).DecodeFault :=
  fun _ => ⟨hc, rfl⟩

/-- Reading fields raises the given code or nothing. -/
theorem decodeFault_getAll (s : State) (p : Phase) {c : Status} (ws : List Nat) (hc : c ∈ decodeFaults)
    (hp : p ≠ .fault := by decide) : (State.getAll c ws { s with ph := p }).2.DecodeFault := by
  obtain h | ⟨-, hs, hr⟩ := State.getAll_ph c ws { s with ph := p }
  · rw [h]
    exact decodeFault_of_ph p rfl hp
  · exact fun _ => ⟨by rw [hs]; exact hc, by rw [hr, hs]⟩

theorem decodeFault_d0Bc7 (s : State) : (d0Bc7 s).DecodeFault := by
  unfold d0Bc7
  split
  · exact decodeFault_raise _
  · exact decodeFault_of_ph .d0

theorem decodeFault_d1Bc6h (T : Tables) (s : State) : (d1Bc6h T s).DecodeFault := by
  unfold d1Bc6h
  split
  · exact decodeFault_raise _
  split
  · exact decodeFault_raise _
  · exact decodeFault_of_ph .d1

theorem decodeFault_checkLength {s : State} (h : s.DecodeFault) : (checkLength s).DecodeFault := by
  unfold checkLength
  split
  · exact h
  · exact decodeFault_raise s

theorem decodeFault_d2Bc7 (T : Tables) (s : State) : (d2Bc7 T s).DecodeFault := by
  have h := decodeFault_getAll (c := .cursorRange) s .d2 [(T.bc7 s.mode).PB, (T.bc7 s.mode).RB, (T.bc7 s.mode).IB]
    (by decide)
  simpa only [State.DecodeFault, d2Bc7] using h

theorem decodeFault_readEndpoints7 (T : Tables) (s : State) : (readEndpoints7 T s).DecodeFault := by
  have h := decodeFault_getAll (c := .cursorRange) s .d3 (T.bc7 s.mode).bodyWidths (by decide)
  simpa only [State.DecodeFault, readEndpoints7] using h

theorem decodeFault_readIndices7 (T : Tables) (s : State) : (readIndices7 T s).DecodeFault := by
  have h := decodeFault_getAll (c := .indexOverrun) s .d5 (T.idxWidths7 (T.bc7 s.mode) s.shape) (by decide)
  simpa only [State.DecodeFault, readIndices7] using h

theorem decodeFault_scanHeader6 (T : Tables) (s : State) : (scanHeader6 T s).DecodeFault := by
  have h := decodeFault_getAll (c := .cursorRange) s .d3
    (List.replicate ((T.layout s.mode).drop (T.bc6h s.mode).selw).length 1) (by decide)
  simpa only [State.DecodeFault, scanHeader6] using h

theorem decodeFault_readIndices6 (T : Tables) (s : State) : (readIndices6 T s).DecodeFault := by
  have h := decodeFault_getAll (c := .indexOverrun) s .d5 (T.idxWidths6 (T.bc6h s.mode) s.shape) (by decide)
  simpa only [State.DecodeFault, readIndices6] using h

theorem decodeFault_readPhases7 (T : Tables) (s : State) : (runPhases (readPhases7 T) s).DecodeFault := by
  refine runPhases_establishes (decodeFault_d0Bc7 s) ?_
  simp only [List.forall_mem_cons]
  exact ⟨fun u _ => decodeFault_of_ph .d1, fun u _ => decodeFault_d2Bc7 T u,
    fun u _ => decodeFault_readEndpoints7 T u, fun u hu => hu, fun u _ => decodeFault_of_ph .d4,
    fun u _ => decodeFault_readIndices7 T u, fun u => decodeFault_checkLength, by simp⟩

theorem decodeFault_readPhases6 (T : Tables) (s : State) : (runPhases (readPhases6 T) s).DecodeFault := by
  refine runPhases_establishes (decodeFault_of_ph .d0) ?_
  simp only [List.forall_mem_cons]
  exact ⟨fun u _ => decodeFault_d1Bc6h T u, fun u _ => decodeFault_scanHeader6 T u,
    fun u _ => decodeFault_of_ph .d4, fun u hu => hu, fun u _ => decodeFault_readIndices6 T u,
    fun u => decodeFault_checkLength, by simp⟩

/-- A decode ends with its pixels, the cursor at the end of the block, or in a fault of its own. -/
def State.DecodeEnds (s : State) : Prop :=
  (s.ph = .d7 ∧ s.status = .ok ∧ s.cur = 128 ∧ s.rsp = some (Response.decoded s.pix)) ∨
    (s.ph = .fault ∧ s.status ∈ decodeFaults ∧ s.rsp = some (Response.statusOnly s.status))

theorem cur_of_checkLength {s : State} (h : (checkLength s).ph ≠ .fault) : (checkLength s).cur = 128 := by
  unfold checkLength at h ⊢
  split
  next hcur => exact hcur
  next hcur => exact absurd (by rw [if_neg hcur]; rfl) h

/-- The phases of a first part that did not raise are followed by the rest. -/
theorem runPhases_append_of_ne {fs gs : List (State → State)} {s : State} (h : (runPhases fs s).ph ≠ .fault) :
    runPhases (fs ++ gs) s = runPhases gs (runPhases fs s) :=
  (runPhases_append_cases fs gs s).resolve_left fun hf => h hf.1

/-- A first part that raised ends the operation. -/
theorem runPhases_append_of_fault {fs gs : List (State → State)} {s : State} (hfs : fs ≠ [])
    (h : (runPhases fs s).ph = .fault) : runPhases (fs ++ gs) s = runPhases fs s := by
  induction fs generalizing s with
  | nil => exact absurd rfl hfs
  | cons f fs ih =>
    by_cases hf : (f s).ph = .fault
    · rw [List.cons_append, runPhases_cons_of_fault _ _ _ hf, runPhases_cons_of_fault _ _ _ hf]
    · rw [runPhases_cons_of_ne _ _ _ hf] at h
      rw [List.cons_append, runPhases_cons_of_ne _ _ _ hf, runPhases_cons_of_ne _ _ _ hf]
      cases fs with
      | nil => exact absurd h hf
      | cons g fs => exact ih (by simp) h

/-- Phases whose last one is the length check leave the cursor at the end of the block, or raise. -/
theorem cur_of_runPhases_checkLength {fs : List (State → State)} {s : State}
    (h : (runPhases (fs ++ [checkLength]) s).ph ≠ .fault) : (runPhases (fs ++ [checkLength]) s).cur = 128 := by
  have hone (u : State) : runPhases [checkLength] u = checkLength u := by
    rw [runPhases]
    exact ite_self _
  obtain ⟨hf, heq⟩ | heq := runPhases_append_cases fs [checkLength] s
  · exact absurd (heq ▸ hf) h
  · rw [heq, hone] at h ⊢
    exact cur_of_checkLength h

/-- The phases after the length check write the pixels and answer. -/
theorem decodeEnds_of_output {d6 : State → State} (hd6 : ∀ u, (d6 u).ph = .d6 ∧ (d6 u).cur = u.cur)
    {fs : List (State → State)} {s : State} (hread : (runPhases (fs ++ [checkLength]) s).DecodeFault) :
    (runPhases (fs ++ [checkLength] ++ [d6, State.respondDec]) s).DecodeEnds := by
  by_cases hph : (runPhases (fs ++ [checkLength]) s).ph = .fault
  · rw [runPhases_append_of_fault (by simp) hph]
    exact .inr ⟨hph, hread hph⟩
  · have hcur := cur_of_runPhases_checkLength hph
    obtain ⟨hph6, hcur6⟩ := hd6 (runPhases (fs ++ [checkLength]) s)
    rw [runPhases_append_of_ne hph, runPhases_cons_of_ne _ _ _ (by simp [hph6]), runPhases_cons_of_ne _ _ _ (by simp)]
    exact .inl ⟨rfl, rfl, hcur6.trans hcur, rfl⟩

theorem decodeBc7_ends (T : Tables) (s : State) : (decodeBc7 T s).DecodeEnds :=
  decodeEnds_of_output (d6 := d6Bc7 T) (fun _ => by simp only [d6Bc7, and_self])
    (fs := [d0Bc7, d1Bc7, d2Bc7 T, readEndpoints7 T, mergePbits7 T, d4Bc7, readIndices7 T]) (decodeFault_readPhases7 T s)

theorem decodeBc6h_ends (T : Tables) (s : State) : (decodeBc6h T s).DecodeEnds :=
  decodeEnds_of_output (d6 := d6Bc6h T) (fun _ => by simp only [d6Bc6h, and_self])
    (fs := [d0Bc6h, d1Bc6h T, scanHeader6 T, signExtend6 T, inverse6 T, readIndices6 T]) (decodeFault_readPhases6 T s)

/-! ## How an encode ends -/

/-- The codes an encode can raise (R307, R308, R287). -/
def encodeFaults : List Status := [.noFit, .badCandidate, .cursorRange]

/-- An encode ends with a full block and its errors, or in a fault of its own. -/
def State.EncodeEnds (s : State) : Prop :=
  (s.ph = .e7 ∧ s.status = .ok ∧ s.cur = 128 ∧ s.rsp = some (Response.encoded s.blk s.errtot s.err)) ∨
    (s.ph = .fault ∧ s.status ∈ encodeFaults ∧ s.rsp = some (Response.statusOnly s.status))

theorem encodeEnds_raise (s : State) {c : Status} (hc : c ∈ encodeFaults) : (s.raise c).EncodeEnds :=
  .inr ⟨rfl, hc, rfl⟩

/-- The length check and the response. -/
theorem runPhases_e6Check (s : State) (hph : s.ph ≠ .fault) :
    runPhases [e6Check, State.respondEnc] s = if s.cur = 128 then s.respondEnc else s.raise .cursorRange := by
  by_cases hcur : s.cur = 128
  · rw [runPhases_cons_eq (e6Check_of_eq hcur) hph, runPhases_cons_of_ne _ _ _ (by simp), if_pos hcur]
    rfl
  · have hcheck : e6Check s = s.raise .cursorRange := if_neg hcur
    rw [runPhases_cons_of_fault _ _ _ (by simp [hcheck]), hcheck, if_neg hcur]

/-- `E6` and what follows it, whatever fields it packs. -/
theorem encodeEnds_of_putAll {e6 : State → State} {s : State} (fs : List (Nat × Nat))
    (he6 : e6 s = State.putAll fs { s with ph := .e6 }) : (runPhases [e6, e6Check, State.respondEnc] s).EncodeEnds := by
  obtain ⟨hput, -⟩ | ⟨_, _, _, -, -, hput⟩ := State.putAll_cases fs { s with ph := .e6 }
  · rw [runPhases_cons_eq (he6.trans hput) (by simp), runPhases_e6Check _ (by simp)]
    split
    next hcur => exact .inl ⟨rfl, rfl, hcur, rfl⟩
    next => exact encodeEnds_raise _ (by decide)
  · rw [runPhases_cons_of_fault _ _ _ (by simp [he6, hput]), he6, hput]
    exact encodeEnds_raise _ (by decide)

theorem encodeBc7_of_not_valid {T : Tables} {q : Bool} {c : Candidate} (h : ¬ ValidBc7 T q c) (s : State) :
    encodeBc7 T q c s = s.raise .badCandidate := by
  obtain ⟨-, henc⟩ | ⟨hvalid, -⟩ := encodeBc7_cases T q c s
  · exact henc
  · exact absurd hvalid h

theorem encodeBc6h_of_not_valid {T : Tables} {q : Bool} {c : Candidate} {s : State}
    (h : ¬ ValidBc6h T q (sgOf s.fmt) c) : encodeBc6h T q c s = s.raise .badCandidate := by
  obtain ⟨-, henc⟩ | ⟨hvalid, -⟩ | ⟨hvalid, -⟩ := encodeBc6h_cases T q c s
  · exact henc
  · exact absurd hvalid h
  · exact absurd hvalid h

theorem encodeBc7_ends (T : Tables) (q : Bool) (c : Candidate) (s : State) : (encodeBc7 T q c s).EncodeEnds := by
  by_cases hvalid : ValidBc7 T q c
  · obtain ⟨u, hu⟩ := encodeBc7_of_valid hvalid s
    rw [hu]
    exact encodeEnds_of_putAll _ rfl
  · rw [encodeBc7_of_not_valid hvalid]
    exact encodeEnds_raise _ (by decide)

theorem encodeBc6h_ends (T : Tables) (q : Bool) (c : Candidate) (s : State) : (encodeBc6h T q c s).EncodeEnds := by
  by_cases hvalid : ValidBc6h T q (sgOf s.fmt) c
  · rw [encodeBc6h_of_valid hvalid]
    by_cases hfit : (afterFixup6 T q c s).Fits6 T
    · rw [runPhases_cons_eq (e5Bc6h_of_fits hfit) (by simp)]
      exact encodeEnds_of_putAll _ rfl
    · rw [runPhases_cons_of_fault _ _ _ (by simp [e5Bc6h_of_not_fits hfit]), e5Bc6h_of_not_fits hfit]
      exact encodeEnds_raise _ (by decide)
  · rw [encodeBc6h_of_not_valid hvalid]
    exact encodeEnds_raise _ (by decide)

/-- Settles O49: each phase that can raise answers with its status alone; the length checks let a full block through
and no other. -/
theorem everyOperationEnds : Obligations.EveryOperationEnds := by
  refine fun T q c s => ⟨?decode, ?encode⟩
  case decode =>
    rintro u (rfl | rfl)
    · exact decodeBc7_ends T s
    · exact decodeBc6h_ends T s
  case encode =>
    rintro u (rfl | rfl)
    · exact encodeBc7_ends T q c s
    · exact encodeBc6h_ends T q c s

/-! ## Refused candidates -/

theorem validCandidate_zero (q : Bool) (c : Candidate) : ValidCandidate q 0 c ↔ ValidBc7 tables q c := by
  rw [ValidCandidate, if_pos rfl]

theorem validCandidate_of_ne {fmt : Fin 3} (h : fmt ≠ 0) (q : Bool) (c : Candidate) :
    ValidCandidate q fmt c ↔ ValidBc6h tables q (fmt == 2) c := by
  rw [ValidCandidate, if_neg h]

/-- Settles O40: `E0` raises on the registers as they were accepted. -/
theorem invalidCandidateIsRefused : Obligations.InvalidCandidateIsRefused := by
  intro q fmt c s hinvalid
  by_cases hfmt : fmt = 0
  · subst hfmt
    rw [exec_encInstr_bc7, encodeBc7_of_not_valid (mt (validCandidate_zero q c).mpr hinvalid)]
    rfl
  · rw [validCandidate_of_ne hfmt, ← sgOf_fmt] at hinvalid
    rw [exec_encInstr_bc6h q fmt c s hfmt,
      encodeBc6h_of_not_valid (s := s.acceptEnc (encOp q) (BitVec.ofNat 2 fmt) c) hinvalid]
    rfl

/-! ## What an encode leaves alone -/

/-- What the phases of an encode keep: the pixel buffer, the inputs and the latched command, and the second index array
where `keep2` says so. -/
def State.SameFrame (keep2 : Prop) (s u : State) : Prop :=
  u.pix = s.pix ∧ u.inputs = s.inputs ∧ u.tile = s.tile ∧ u.op = s.op ∧ u.fmt = s.fmt ∧ u.busy = s.busy ∧
    u.mode = s.mode ∧ (keep2 → u.ix2 = s.ix2)

section
variable {keep2 : Prop} {s u : State}

theorem State.SameFrame.refl (keep2 : Prop) (s : State) : s.SameFrame keep2 s :=
  ⟨rfl, rfl, rfl, rfl, rfl, rfl, rfl, fun _ => rfl⟩

theorem State.SameFrame.mode_eq (h : s.SameFrame keep2 u) : u.mode = s.mode := by
  obtain ⟨-, -, -, -, -, -, hmode, -⟩ := h
  exact hmode

theorem sameFrame_loadCandidate {c : Candidate} (hmode : s.mode = c.mode.toNat) (h : s.SameFrame keep2 u) :
    s.SameFrame keep2 (loadCandidate c u) := by
  obtain ⟨hpix, hin, htile, hop, hfmt, hbusy, -, hix2⟩ := h
  exact ⟨hpix, hin, htile, hop, hfmt, hbusy, hmode.symm, hix2⟩

theorem sameFrame_putAll (fs : List (Nat × Nat)) (p : Phase) (h : s.SameFrame keep2 u) :
    s.SameFrame keep2 (State.putAll fs { u with ph := p }) := by
  simpa [State.SameFrame] using h

theorem sameFrame_fixRegions (T : Tables) (P ip : Nat) (ownPb : Bool) (h : s.SameFrame keep2 u) :
    s.SameFrame keep2 (fixRegions T P ip ownPb u) := by
  obtain ⟨_, _, _, heq⟩ := fixRegions_frame T P ip ownPb u
  rw [heq]
  exact h

theorem sameFrame_e3Bc7 {T : Tables} (hkeep2 : keep2 → (T.bc7 s.mode).IP2 = 0) (h : s.SameFrame keep2 u) :
    s.SameFrame keep2 (e3Bc7 T u) := by
  by_cases hdual : 0 < (T.bc7 u.mode).IP2
  · have hnot : ¬ keep2 := fun hk => by
      rw [h.mode_eq, hkeep2 hk] at hdual
      exact hdual.ne rfl
    simpa only [State.SameFrame, e3Bc7, addErrors, hdual, if_true, hnot, false_implies] using h
  · simpa only [State.SameFrame, e3Bc7, addErrors, hdual, if_false] using h

theorem sameFrame_e4Bc7 {T : Tables} (hkeep2 : keep2 → (T.bc7 s.mode).IP2 = 0) (h : s.SameFrame keep2 u) :
    s.SameFrame keep2 (e4Bc7 T u) := by
  obtain hsingle | hdual := Nat.eq_zero_or_pos (T.bc7 u.mode).IP2
  · rw [e4Bc7_of_single hsingle]
    exact sameFrame_fixRegions (u := { u with ph := .e4 }) T _ _ _ h
  · have hnot : ¬ keep2 := fun hk => by
      rw [h.mode_eq, hkeep2 hk] at hdual
      exact hdual.ne rfl
    obtain ⟨_, _, h1⟩ := fixArray1_frame (T.bc7 u.mode) { u with ph := .e4 }
    obtain ⟨_, _, h2⟩ := fixArray2_frame (T.bc7 u.mode) (fixArray1 (T.bc7 u.mode) { u with ph := .e4 })
    rw [e4Bc7_of_dual hdual, h2, h1]
    simpa only [State.SameFrame, hnot, false_implies] using h

theorem sameFrame_e5Bc6h (T : Tables) (h : s.SameFrame keep2 u) : s.SameFrame keep2 (e5Bc6h T u) := by
  by_cases hfit : u.Fits6 T
  · rw [e5Bc6h_of_fits hfit]
    exact h
  · rw [e5Bc6h_of_not_fits hfit]
    exact h

theorem sameFrame_e6Check (h : s.SameFrame keep2 u) : s.SameFrame keep2 (e6Check u) := by
  unfold e6Check
  split <;> exact h

theorem sameFrame_encodeBc7 {T : Tables} {q : Bool} {c : Candidate} (hmode : s.mode = c.mode.toNat)
    (hkeep2 : keep2 → (T.bc7 c.mode.toNat).IP2 = 0) : s.SameFrame keep2 (encodeBc7 T q c s) := by
  rw [← hmode] at hkeep2
  refine runPhases_keeps _ _ _ (.refl keep2 s) ?_
  simp only [List.forall_mem_cons]
  refine ⟨fun u h => ?e0, fun u h => h, fun u h => h, fun u => sameFrame_e3Bc7 hkeep2, fun u => sameFrame_e4Bc7 hkeep2,
    fun u h => h, fun u => sameFrame_putAll _ .e6, fun u => sameFrame_e6Check, fun u h => h, by simp⟩
  rw [e0Bc7]
  split
  · exact sameFrame_loadCandidate hmode h
  · exact h

theorem sameFrame_encodeBc6h {T : Tables} {q : Bool} {c : Candidate} (hmode : s.mode = c.mode.toNat) :
    s.SameFrame True (encodeBc6h T q c s) := by
  refine runPhases_keeps _ _ _ (.refl True s) ?_
  simp only [List.forall_mem_cons]
  refine ⟨fun u h => ?e0, fun u h => h, fun u h => h, fun u h => ?e3, fun u h => ?e4,
    fun u => sameFrame_e5Bc6h T, fun u => sameFrame_putAll _ .e6, fun u => sameFrame_e6Check, fun u h => h, by simp⟩
  case e0 =>
    rw [e0Bc6h]
    split
    · exact sameFrame_loadCandidate hmode h
    · exact h
  case e3 => simpa only [State.SameFrame, e3Bc6h, addErrors] using h
  case e4 => exact sameFrame_fixRegions (u := { u with ph := .e4 }) T _ _ _ h

end

/-- Settles O46: the phases of an encode keep the frame, and no other phase than the fixup and the search of a
dual-index mode writes the second index array. -/
theorem encodeFrames : Obligations.EncodeFrames := by
  intro q fmt c s t hexec
  by_cases hfmt : fmt = 0
  · subst hfmt
    rw [exec_encInstr_bc7] at hexec
    obtain ⟨hpix, hin, htile, hop, hfmt, hbusy, -, hix2⟩ :=
      Host.Outcome.next.inj hexec ▸ sameFrame_encodeBc7 (T := tables) (q := q) (c := c)
        (s := s.acceptEnc (encOp q) 0 c) (keep2 := (tables.bc7 c.mode.toNat).IP2 = 0) rfl id
    exact ⟨hpix, hin, htile, hop, hfmt, hbusy, fun h => hix2 (h.resolve_left fun hne => hne rfl)⟩
  · rw [exec_encInstr_bc6h q fmt c s hfmt] at hexec
    obtain ⟨hpix, hin, htile, hop, hfmt, hbusy, -, hix2⟩ :=
      Host.Outcome.next.inj hexec ▸ sameFrame_encodeBc6h (T := tables) (q := q) (c := c)
        (s := s.acceptEnc (encOp q) (BitVec.ofNat 2 fmt) c) rfl
    exact ⟨hpix, hin, htile, hop, hfmt, hbusy, fun _ => hix2 trivial⟩

end Sys2Proof.Machine
end

section
/-! PROOFS. What the phases that BC7 and BC6H encodes share leave in the registers: the fixup normalisation (R218, R219)
in closed form, and the error accumulators (R214 to R217). -/

-- Elaborated in order: the stack of each thread that waits for another counts against the check's memory limit.
set_option Elab.async false

namespace Sys2Proof.Machine

/-! ## The p-bits after the fixup loop -/

theorem rd_pb_fixRegion (T : Tables) (P ip : Nat) (ownPb : Bool) (s : State) (r : Nat) {k : Nat} (hk : k < 6) :
    rd (fixRegion T P ip ownPb s r).pb k 0 =
      rd s.pb (endOf (ownPb && (decide (k / 2 = r) && swapsRegion T P ip s r)) k) 0 := by
  unfold fixRegion swapsRegion
  cases ownPb with
  | false => split <;> simp
  | true =>
    split
    next hbit => simp [hk, hbit, partner_eq_endOf]
    next hbit => simp [hbit]

theorem rd_pb_foldl_fixRegion {P ip : Nat} (ownPb : Bool) {s : State} (hP : P < 3) (hs : s.shape < 64) {n : Nat}
    (hn : n ≤ P + 1) {k : Nat} (hk : k < 6) :
    rd ((List.range n).foldl (fixRegion tables P ip ownPb) s).pb k 0 =
      rd s.pb (endOf (ownPb && (decide (k / 2 < n) && swapsRegion tables P ip s (k / 2))) k) 0 := by
  induction n generalizing k with
  | zero => simp
  | succ n ih =>
    rw [List.range_succ, List.foldl_append, List.foldl_cons, List.foldl_nil, rd_pb_fixRegion _ _ _ _ _ _ hk,
      swapsRegion_foldl_fixRegion ownPb hP hs (by omega), ih (by omega) (endOf_lt (n := 3) _ hk), endOf_div_two]
    obtain hlt | rfl | hgt := lt_trichotomy (k / 2) n
    · simp [hlt, hlt.ne, Nat.lt_succ_of_lt hlt]
    · simp
    · simp [hgt.ne', hgt.not_gt, show ¬ k / 2 < n + 1 by omega]

/-! ## The fixup in closed form -/

theorem epFile_ext {v w : EpFile} (h : ∀ e < 6, ∀ c < 4, epAt v e c = epAt w e c) : v = w := by
  have hv : grid 6 4 (epAt v) = v := grid_cell v 0
  have hw : grid 6 4 (epAt w) = w := grid_cell w 0
  rw [← hv, ← hw]
  exact vector_ext_rd _ _ (tab 4 fun _ => 0) fun e he => vector_ext_rd _ _ 0 fun c hc => by
    simp only [grid, rd_tab _ _ _ he, rd_tab _ _ _ hc, h e he c hc]

/-- The four registers the fixup writes. -/
theorem State.fixup_congr {s : State} {ep ep' : EpFile} {pb pb' : Vector Nat 6} {ix1 ix1' ix2 ix2' : Vector Nat 16}
    (hep : ep = ep') (hpb : pb = pb') (hix1 : ix1 = ix1') (hix2 : ix2 = ix2') :
    { s with ep := ep, pb := pb, ix1 := ix1, ix2 := ix2 } =
      { s with ep := ep', pb := pb', ix1 := ix1', ix2 := ix2' } := by
  rw [hep, hpb, hix1, hix2]

/-- The fixup swaps the endpoints of region `r`. -/
def fixes (P ip : Nat) (s : State) (r : Nat) : Bool := decide (r < P + 1) && swapsRegion tables P ip s r

theorem fixRegions_eq {P ip : Nat} (ownPb : Bool) {s : State} (hP : P < 3) (hs : s.shape < 64) :
    fixRegions tables P ip ownPb s =
      { s with
        ep := grid 6 4 fun e c => epAt s.ep (endOf (fixes P ip s (e / 2)) e) c
        pb := tab 6 fun k => rd s.pb (endOf (ownPb && fixes P ip s (k / 2)) k) 0
        ix1 := tab 16 fun i =>
          mirrored (swapsRegion tables P ip s (tables.region P s.shape i)) ip (rd s.ix1 i 0) } := by
  obtain ⟨ep, pb, ix1, h⟩ := fixRegions_frame tables P ip ownPb s
  have hep : (fixRegions tables P ip ownPb s).ep = ep := by rw [h]
  have hpb : (fixRegions tables P ip ownPb s).pb = pb := by rw [h]
  have hix1 : (fixRegions tables P ip ownPb s).ix1 = ix1 := by rw [h]
  rw [h]
  refine State.fixup_congr ?_ ?_ ?_ rfl
  · refine epFile_ext fun e he c hc => ?_
    rw [← hep, epAt_grid _ he hc, fixRegions, epAt_foldl_fixRegion ownPb hP hs le_rfl he hc, fixes]
  · refine vector_ext_rd _ _ 0 fun k hk => ?_
    rw [← hpb, rd_tab _ _ _ hk, fixRegions, rd_pb_foldl_fixRegion ownPb hP hs le_rfl hk, fixes]
  · refine vector_ext_rd _ _ 0 fun i hi => ?_
    rw [← hix1, rd_tab _ _ _ hi, rd_ix1_fixRegions ownPb hP hs hi]

theorem epAt_ite_partner (v : EpFile) (p : Prop) [Decidable p] (e c : Nat) :
    (if p then epAt v (partner 0 e) c else epAt v e c) = epAt v (endOf (decide p && decide (e / 2 = 0)) e) c := by
  rw [partner_eq_endOf]
  split
  next h => rw [decide_eq_true h, Bool.true_and]
  next h => rw [decide_eq_false h, Bool.false_and, endOf_false]

theorem fixArray1_eq (d : Desc7) (s : State) :
    fixArray1 d s =
      { s with
        ep := grid 6 4 fun e c => epAt s.ep
          (endOf (decide (c < 3 ↔ s.idxm ≠ 1) && (decide (e / 2 = 0) && (rd s.ix1 0 0).testBit (d.IP - 1))) e) c
        ix1 := tab 16 fun i => mirrored ((rd s.ix1 0 0).testBit (d.IP - 1)) d.IP (rd s.ix1 i 0) } := by
  cases hbit : (rd s.ix1 0 0).testBit (d.IP - 1) with
  | false =>
    have hep : grid 6 4 (epAt s.ep) = s.ep := grid_cell s.ep 0
    simp [fixArray1, hbit, tab_rd, hep]
  | true =>
    simp only [fixArray1, hbit, if_true, epAt_ite_partner, Bool.and_true, mirrored]

theorem fixArray2_eq (d : Desc7) (s : State) :
    fixArray2 d s =
      { s with
        ep := grid 6 4 fun e c => epAt s.ep
          (endOf (decide (c < 3 ↔ s.idxm = 1) && (decide (e / 2 = 0) && (rd s.ix2 0 0).testBit (d.IP2 - 1))) e) c
        ix2 := tab 16 fun i => mirrored ((rd s.ix2 0 0).testBit (d.IP2 - 1)) d.IP2 (rd s.ix2 i 0) } := by
  cases hbit : (rd s.ix2 0 0).testBit (d.IP2 - 1) with
  | false =>
    have hep : grid 6 4 (epAt s.ep) = s.ep := grid_cell s.ep 0
    simp [fixArray2, hbit, tab_rd, hep]
  | true =>
    simp only [fixArray2, hbit, if_true, epAt_ite_partner, Bool.and_true, mirrored]

/-! ## The error accumulators -/

theorem regionSum_congr {P shape r : Nat} {e f : Nat → Nat} (h : ∀ i < 16, e i = f i) :
    regionSum P shape r e = regionSum P shape r f := by
  rw [regionSum, regionSum]
  exact congrArg List.sum (List.map_congr_left fun i hi => by rw [h i (List.mem_range.mp hi)])

theorem tileSum_congr {e f : Nat → Nat} (h : ∀ i < 16, e i = f i) : tileSum e = tileSum f := by
  rw [tileSum, tileSum]
  exact congrArg List.sum (List.map_congr_left fun i hi => h i (List.mem_range.mp hi))

/-- The three regions share out the pixels. -/
theorem sum_regionSum {P shape : Nat} (hP : P < 3) (hs : shape < 64) (e : Nat → Nat) :
    regionSum P shape 0 e + regionSum P shape 1 e + regionSum P shape 2 e = tileSum e := by
  simp only [regionSum, tileSum, ← List.sum_map_add]
  refine congrArg List.sum (List.map_congr_left fun i hi => ?_)
  have hr := region_lt P shape i (by omega) hs (List.mem_range.mp hi)
  obtain h | h | h : tables.region P shape i = 0 ∨ tables.region P shape i = 1 ∨ tables.region P shape i = 2 := by omega
  all_goals simp [h]

theorem regionSum_le_tileSum {P shape : Nat} (hP : P < 3) (hs : shape < 64) (e : Nat → Nat) {r : Nat} (hr : r < 3) :
    regionSum P shape r e ≤ tileSum e := by
  rw [← sum_regionSum hP hs]
  interval_cases r <;> omega

/-- From cleared accumulators. -/
theorem addErrors_eq {P : Nat} {e f : Nat → Nat} {s : State} (hP : P < 3) (hs : s.shape < 64)
    (herr : s.err = tab 3 fun _ => 0) (h : ∀ i < 16, e i = f i) :
    addErrors tables P e s =
      { s with err := tab 3 fun r => regionSum P s.shape r f, errtot := tileSum f } := by
  have hsum (r : Nat) :
      rd s.err r 0 + ((List.range 16).map fun i => if tables.region P s.shape i = r then e i else 0).sum =
        regionSum P s.shape r f := by
    rw [herr, rd_tab_eq, ite_self, Nat.zero_add, ← regionSum_congr h, regionSum]
  simp only [addErrors, hsum]
  rw [rd_tab _ _ _ (by decide), rd_tab _ _ _ (by decide), rd_tab _ _ _ (by decide), sum_regionSum hP hs]

end Sys2Proof.Machine
end

section
/-! PROOFS. The BC7 `ENC*` (47_encoder.md sections 3 to 8): the reference fields of a valid candidate are well formed, and
the phases `E0` to `E7` leave exactly them, their block and their errors. -/

-- Elaborated in order: the stack of each thread that waits for another counts against the check's memory limit.
set_option Elab.async false

namespace Sys2Proof.Machine

/-! ## Indices after the fixup -/

theorem lt_two_pow_pred_of_testBit {x ip : Nat} (hx : x < 2 ^ ip) (h : x.testBit (ip - 1) = false) :
    x < 2 ^ (ip - 1) := by
  refine Nat.lt_pow_two_of_testBit x fun i hi => ?_
  obtain rfl | hlt := hi.eq_or_lt
  · exact h
  · exact Nat.testBit_lt_two_pow (hx.trans_le (Nat.pow_le_pow_right (by decide) (by omega)))

/-- An index array whose regions are mirrored where their fixup entry has its high bit set fits the entry widths. -/
theorem mirrored_lt_idxWidth {P shape ip : Nat} (hP : P < 3) (hs : shape < 64) {j : Nat → Nat} (hj : ∀ i, j i < 2 ^ ip)
    (i : Nat) :
    mirrored ((j (tables.fixup P shape (tables.region P shape i))).testBit (ip - 1)) ip (j i) <
      2 ^ tables.idxWidth P shape ip i := by
  have hlt := mirrored_lt ((j (tables.fixup P shape (tables.region P shape i))).testBit (ip - 1)) ip (j i) (hj i)
  rw [Tables.idxWidth]
  split
  next hfix =>
    simp only [Tables.isFix, List.any_eq_true, List.mem_range, beq_iff_eq] at hfix
    obtain ⟨r, hr, rfl⟩ := hfix
    rw [region_fixup P hP shape hs r (by omega)] at hlt ⊢
    exact lt_two_pow_pred_of_testBit hlt (testBit_mirrored_highBit (hj _))
  next => exact hlt

theorem nearest_fst_lt (D : Nat → Nat) (ip : Nat) : (nearest D (2 ^ ip - 1)).1 < 2 ^ ip :=
  (nearest_fst_le D _).trans_lt (Nat.sub_lt (Nat.two_pow_pos ip) (by decide))

theorem refFirst7_fst_lt (q : Bool) (c : Candidate) (i : Nat) : (refFirst7 q c i).1 < 2 ^ (tables.bc7 c.mode.toNat).IP :=
  nearest_fst_lt _ _

theorem refSecond7_fst_lt (q : Bool) (c : Candidate) (i : Nat) :
    (refSecond7 q c i).1 < 2 ^ (tables.bc7 c.mode.toNat).IP2 := by
  rw [refSecond7]
  split
  next h => simp [h]
  next => exact nearest_fst_lt _ _

/-! ## The endpoint fields and p-bits -/

theorem endOf_lt_ne_iff (d : Desc7) (b : Bool) (e : Nat) : endOf b e < d.ne ↔ e < d.ne := by
  have hdiv := endOf_div_two b e
  rw [Desc7.ne]
  omega

theorem epWidth_endOf (d : Desc7) (b : Bool) (e ch : Nat) : d.epWidth (endOf b e) ch = d.epWidth e ch := by
  simp only [Desc7.epWidth, endOf_lt_ne_iff]

theorem bc7_prec_le : ∀ m < 8, ∀ ch < 4, (tables.bc7 m).prec ch ≤ 8 := by decide

theorem fieldBc7_of_not {d : Desc7} {e ch : Nat} (h : ¬ (e < d.ne ∧ ch < d.nch)) (q : Bool) (c : Candidate) :
    fieldBc7 d q c e ch = 0 := if_neg h

/-- The stored fields fit their widths (R275, R277, R278). -/
theorem fieldBc7_mem {q : Bool} {c : Candidate} (hvalid : ValidBc7 tables q c) {e ch : Nat} (hch4 : ch < 4) :
    0 ≤ fieldBc7 (tables.bc7 c.mode.toNat) q c e ch ∧
      fieldBc7 (tables.bc7 c.mode.toNat) q c e ch < 2 ^ (tables.bc7 c.mode.toNat).epWidth e ch := by
  obtain ⟨hmode, -, -, -, hep⟩ := hvalid
  by_cases h : e < (tables.bc7 c.mode.toNat).ne ∧ ch < (tables.bc7 c.mode.toNat).nch
  · obtain ⟨he, hch⟩ := h
    cases q with
    | false =>
      rw [fieldBc7, if_pos ⟨he, hch⟩]
      exact hep e he ch hch
    | true =>
      have hq : quant7 (tables.bc7 c.mode.toNat) c e ch < 2 ^ (tables.bc7 c.mode.toNat).prec ch :=
        q7_lt _ (bc7_prec_le _ (by omega) ch hch4)
      rw [Desc7.prec] at hq
      rw [Desc7.epWidth, if_pos he]
      obtain hNP | hNP := Nat.eq_zero_or_pos (tables.bc7 c.mode.toNat).NP
      · rw [fieldBc7_of_no_pbits he hch hNP]
        rw [if_neg hNP.not_gt, Nat.add_zero] at hq
        exact ⟨Int.natCast_nonneg _, by exact_mod_cast hq⟩
      · rw [fieldBc7_of_pbits he hch hNP]
        rw [if_pos hNP, pow_succ] at hq
        exact ⟨Int.natCast_nonneg _, by exact_mod_cast Nat.div_lt_of_lt_mul (by omega)⟩
  · rw [fieldBc7_of_not h]
    exact ⟨le_rfl, by positivity⟩

theorem refEp7_mem {q : Bool} {c : Candidate} (hvalid : ValidBc7 tables q c) {e ch : Nat} (hch : ch < 4) :
    0 ≤ refEp7 q c e ch ∧ refEp7 q c e ch < 2 ^ (tables.bc7 c.mode.toNat).epWidth e ch := by
  have h := fieldBc7_mem hvalid (e := endOf (if ch ∈ refChannels1 c then refSwap1 q c (e / 2) else refSwap2 q c) e) hch
  rwa [epWidth_endOf] at h

theorem pbitBc7_of_le {d : Desc7} {k : Nat} (h : d.NP ≤ k) (q : Bool) (c : Candidate) : pbitBc7 d q c k = 0 :=
  if_neg h.not_gt

/-- Beyond the p-bits of the mode the reference has 0. -/
theorem rd_refFields7_pb_of_le {q : Bool} {c : Candidate} {k : Nat} (hk : k < 6)
    (h : (tables.bc7 c.mode.toNat).NP ≤ k) : rd (refFields7 q c).pb k 0 = 0 := by
  rw [refFields7, rd_tab _ _ _ hk]
  split
  next hNP => exact pbitBc7_of_le (hNP ▸ not_lt.mp (mt (endOf_lt_ne_iff _ _ _).mp (by omega))) q c
  next => exact pbitBc7_of_le h q c

theorem rd_refFields7_pb_le_one (q : Bool) (c : Candidate) (k : Nat) : rd (refFields7 q c).pb k 0 ≤ 1 := by
  rw [refFields7, rd_tab_eq]
  split
  · exact pbitBc7_le_one _ _ _ _
  · exact Nat.zero_le _

theorem validBc7_bounds {q : Bool} {c : Candidate} (h : ValidBc7 tables q c) :
    c.mode.toNat < 8 ∧ (tables.bc7 c.mode.toNat).P < 3 ∧ c.shape.toNat < 64 := by
  obtain ⟨hmode, hshape, -⟩ := h
  obtain ⟨hP, hPB, -⟩ := bc7_index_bounds c.mode.toNat (by omega)
  exact ⟨by omega, hP, hshape.trans_le hPB⟩

theorem rd_refFields7_ix1 (q : Bool) (c : Candidate) {i : Nat} (hi : i < 16) :
    rd (refFields7 q c).ix1 i 0 = mirrored (refSwap1 q c (tables.region (tables.bc7 c.mode.toNat).P c.shape.toNat i))
      (tables.bc7 c.mode.toNat).IP (refFirst7 q c i).1 := by
  rw [refFields7, rd_tab _ _ _ hi]

theorem rd_refFields7_ix2 (q : Bool) (c : Candidate) {i : Nat} (hi : i < 16) :
    rd (refFields7 q c).ix2 i 0 = if (tables.bc7 c.mode.toNat).IP2 = 0 then 0 else
      mirrored (refSwap2 q c) (tables.bc7 c.mode.toNat).IP2 (refSecond7 q c i).1 := by
  rw [refFields7, rd_tab _ _ _ hi]

/-- The reference fields of a valid candidate fit its mode. -/
theorem refFields7_wf {q : Bool} {c : Candidate} (hvalid : ValidBc7 tables q c) :
    (refFields7 q c).WF c.mode.toNat := by
  obtain ⟨-, hP, hs⟩ := validBc7_bounds hvalid
  have hvalid' := hvalid
  obtain ⟨-, hshape, hrot, hidxm, -⟩ := hvalid'
  refine ⟨hshape, hrot, hidxm, fun e he ch hch => ?ep, fun k hk => ?pb, fun i hi => ?ix1, fun i hi => ?ix2⟩
  case ep =>
    obtain ⟨h0, hlt⟩ := refEp7_mem hvalid (e := e) hch
    rw [refFields7, cell_grid _ _ _ _ he hch]
    exact (Int.toNat_lt h0).mpr (by exact_mod_cast hlt)
  case pb =>
    split
    next => exact Nat.lt_succ_of_le (rd_refFields7_pb_le_one q c k)
    next hNP => rw [rd_refFields7_pb_of_le hk (not_lt.mp hNP)]; decide
  case ix1 =>
    rw [rd_refFields7_ix1 q c hi]
    exact mirrored_lt_idxWidth hP hs (refFirst7_fst_lt q c) i
  case ix2 =>
    rw [rd_refFields7_ix2 q c hi, Desc7.idx2Width]
    split
    · positivity
    have hlt := mirrored_lt (refSwap2 q c) _ _ (refSecond7_fst_lt q c i)
    split
    next hi0 =>
      subst hi0
      exact lt_two_pow_pred_of_testBit hlt (testBit_mirrored_highBit (refSecond7_fst_lt q c 0))
    next => exact hlt

end Sys2Proof.Machine
end

section
/-! PROOFS. What a BC7 `ENC*` of a valid candidate answers: the registers phase by phase (R276 to R284). -/

-- Elaborated in order: the stack of each thread that waits for another counts against the check's memory limit.
set_option Elab.async false

namespace Sys2Proof.Machine

theorem tab_congr {α : Type} {n : Nat} {f g : Nat → α} (h : ∀ i < n, f i = g i) : tab n f = tab n g := by
  refine vector_ext_rd _ _ (f 0) fun i hi => ?_
  rw [rd_tab _ _ _ hi, rd_tab _ _ _ hi, h i hi]

/-! ## `E1` and `E2` -/

/-- The registers of a BC7 encode after `E2`. -/
def quantized7 (q : Bool) (c : Candidate) (s : State) : State :=
  { s with
    ph := .e2, mode := c.mode.toNat, shape := c.shape.toNat, rot := c.rot.toNat, idxm := c.idxm.toNat
    ep := grid 6 4 (fieldBc7 (tables.bc7 c.mode.toNat) q c), pb := tab 6 (pbitBc7 (tables.bc7 c.mode.toNat) q c) }

theorem e2Palette_e1Bc7 (q : Bool) (c : Candidate) (s : State) :
    e2Palette (e1Bc7 tables q c (loadCandidate c s)) = quantized7 q c s := rfl

@[simp] theorem quantized7_mode (q : Bool) (c : Candidate) (s : State) : (quantized7 q c s).mode = c.mode.toNat := rfl

@[simp] theorem quantized7_idxm (q : Bool) (c : Candidate) (s : State) : (quantized7 q c s).idxm = c.idxm.toNat := rfl

/-- `E2`'s endpoints are the reference's (R280). -/
theorem encE7_quantized7 (q : Bool) (c : Candidate) (s : State) {e ch : Nat} (he : e < 6) (hch : ch < 4) :
    encE7 (tables.bc7 c.mode.toNat) (quantized7 q c s) e ch = refCandE7 q c e ch := by
  simp only [encE7, quantized7, refCandE7, epAt_grid _ he hch]

/-! ## `E3` -/

/-- A search over the palette of `E2` is that of the reference (R211, R212). -/
theorem nearest_quantized7 {q : Bool} {c : Candidate} {s : State} (htile : s.tile = c.tile) {r : Nat} (hr : r < 3)
    (ip : Nat) {S : List Nat} (hS : ∀ ch ∈ S, ch < 4) (i : Nat) :
    nearest (fun j => dist (stored7 (quantized7 q c s) i)
        (pal7 tables (encE7 (tables.bc7 c.mode.toNat) (quantized7 q c s)) r ip j) S) (2 ^ ip - 1) =
      nearest (fun j => dist (rotate c.rot.toNat (chan7 (rd c.tile i 0)))
        (pal7 tables (refCandE7 q c) r ip j) S) (2 ^ ip - 1) := by
  refine congrArg (nearest · _) (funext fun j => dist_congr _ _ _ _ _ fun ch hch => ⟨?_, ?_⟩)
  · simp only [stored7, quantized7, htile]
  · exact pal7_congr _ _ _ fun e he => encE7_quantized7 q c s (by omega) (hS ch hch)

section
variable {q : Bool} {c : Candidate} {s : State} (htile : s.tile = c.tile) (hvalid : ValidBc7 tables q c)
include htile hvalid

theorem search7_quantized7 (hsingle : (tables.bc7 c.mode.toNat).IP2 = 0) {i : Nat} (hi : i < 16) :
    search7 tables (quantized7 q c s) i = refFirst7 q c i := by
  obtain ⟨-, hP, hs⟩ := validBc7_bounds hvalid
  have hr := region_lt (tables.bc7 c.mode.toNat).P c.shape.toNat i (by omega) hs hi
  rw [refFirst7, refChannels1, if_pos hsingle]
  exact nearest_quantized7 htile (r := tables.region (tables.bc7 c.mode.toNat).P c.shape.toNat i) (by omega) _
    (by decide) i

/-- The searches of a dual-index mode: `ip` and the channels are those of the array (R215). -/
theorem nearest_quantized7_dual (hdual : 0 < (tables.bc7 c.mode.toNat).IP2) (ip : Nat) {S : List Nat}
    (hS : ∀ ch ∈ S, ch < 4) (i : Nat) :
    nearest (fun j => dist (stored7 (quantized7 q c s) i)
        (pal7 tables (encE7 (tables.bc7 c.mode.toNat) (quantized7 q c s)) 0 ip j) S) (2 ^ ip - 1) =
      refSearch7 q c ip S i := by
  obtain ⟨hm, -⟩ := validBc7_bounds hvalid
  have hregion : tables.region (tables.bc7 c.mode.toNat).P c.shape.toNat i = 0 := by
    rw [bc7_P_eq_zero_of_dual _ hm hdual]
    rfl
  rw [nearest_quantized7 htile (by decide) ip hS i]
  simp only [refSearch7, hregion]

end

/-- Array 1 takes `IP`-bit entries, array 2 `IP2`-bit ones (R215). -/
theorem toNat_idxm_eq_one_iff (c : Candidate) : c.idxm.toNat = 1 ↔ c.idxm = 1 := by
  rw [← BitVec.toNat_inj]
  rfl

theorem cp_idxm_of_dual {d : Desc7} {c : Candidate} (hdual : 0 < d.IP2) :
    d.cp c.idxm.toNat = if c.idxm = 1 then d.IP2 else d.IP := by
  simp only [Desc7.cp, hdual, true_and, toNat_idxm_eq_one_iff]

theorem ap_idxm_of_dual {d : Desc7} {c : Candidate} (hdual : 0 < d.IP2) :
    d.ap c.idxm.toNat = if c.idxm = 1 then d.IP else d.IP2 := by
  simp only [Desc7.ap, hdual, true_and, ne_eq, toNat_idxm_eq_one_iff, ite_not]

/-- The registers of a BC7 encode after `E3`. -/
def indexed7 (q : Bool) (c : Candidate) (s : State) : State :=
  { quantized7 q c s with
    ph := .e3
    ix1 := tab 16 fun i => (refFirst7 q c i).1
    ix2 := if 0 < (tables.bc7 c.mode.toNat).IP2 then tab 16 fun i => (refSecond7 q c i).1 else s.ix2
    err := tab 3 fun r => regionSum (tables.bc7 c.mode.toNat).P c.shape.toNat r (refErr7 q c)
    errtot := tileSum (refErr7 q c) }

section
variable {q : Bool} {c : Candidate} {s : State} (htile : s.tile = c.tile) (hvalid : ValidBc7 tables q c)
  (herr : s.err = tab 3 fun _ => 0)
include htile hvalid herr

theorem e3Bc7_of_single (hsingle : (tables.bc7 c.mode.toNat).IP2 = 0) :
    e3Bc7 tables (quantized7 q c s) = indexed7 q c s := by
  obtain ⟨-, hP, hs⟩ := validBc7_bounds hvalid
  have hsearch : ∀ i < 16, search7 tables (quantized7 q c s) i = refFirst7 q c i := fun i hi =>
    search7_quantized7 htile hvalid hsingle hi
  have herror : ∀ i < 16, (search7 tables (quantized7 q c s) i).2 = refErr7 q c i := fun i hi => by
    rw [hsearch i hi, refErr7, refSecond7, if_pos hsingle]
    rfl
  have hix1 : (tab 16 fun i => (search7 tables (quantized7 q c s) i).1) = tab 16 fun i => (refFirst7 q c i).1 :=
    tab_congr fun i hi => by rw [hsearch i hi]
  have hnot : ¬ 0 < (tables.bc7 c.mode.toNat).IP2 := by omega
  simp only [e3Bc7, quantized7_mode, hnot, if_false]
  rw [addErrors_eq hP ?_ ?_ herror, hix1, indexed7, if_neg hnot]
  · rfl
  · exact hs
  · exact herr

omit herr in
/-- In a dual-index mode array 1 holds the `IP`-bit entries and array 2 the `IP2`-bit ones (R215). -/
theorem searches_dual (hdual : 0 < (tables.bc7 c.mode.toNat).IP2) (i : Nat) :
    let u := quantized7 q c s
    (if c.idxm = 1 then searchAlpha7 tables u i else searchColour7 tables u i) = refFirst7 q c i ∧
      (if c.idxm = 1 then searchColour7 tables u i else searchAlpha7 tables u i) = refSecond7 q c i := by
  have hcolour := nearest_quantized7_dual htile hvalid hdual ((tables.bc7 c.mode.toNat).cp c.idxm.toNat)
    (S := [0, 1, 2]) (by decide) i
  have halpha := nearest_quantized7_dual htile hvalid hdual ((tables.bc7 c.mode.toNat).ap c.idxm.toNat)
    (S := [3]) (by decide) i
  simp only [searchColour7, searchAlpha7, quantized7_mode, quantized7_idxm, hcolour, halpha, refFirst7, refSecond7,
    refChannels1, refChannels2, if_neg hdual.ne']
  rw [cp_idxm_of_dual hdual, ap_idxm_of_dual hdual]
  by_cases h : c.idxm = 1 <;> simp only [h, if_true, if_false, and_self]

theorem e3Bc7_of_dual (hdual : 0 < (tables.bc7 c.mode.toNat).IP2) :
    e3Bc7 tables (quantized7 q c s) = indexed7 q c s := by
  obtain ⟨-, hP, hs⟩ := validBc7_bounds hvalid
  have herror : ∀ i < 16, (searchColour7 tables (quantized7 q c s) i).2 + (searchAlpha7 tables (quantized7 q c s) i).2 =
      refErr7 q c i := fun i _ => by
    obtain ⟨h1, h2⟩ := searches_dual (s := s) htile hvalid hdual i
    rw [refErr7, ← h1, ← h2]
    split
    · exact Nat.add_comm _ _
    · rfl
  have hix1 (i : Nat) : (if c.idxm = 1 then (searchAlpha7 tables (quantized7 q c s) i).1
      else (searchColour7 tables (quantized7 q c s) i).1) = (refFirst7 q c i).1 := by
    rw [← (searches_dual (s := s) htile hvalid hdual i).1]
    split <;> rfl
  have hix2 (i : Nat) : (if c.idxm = 1 then (searchColour7 tables (quantized7 q c s) i).1
      else (searchAlpha7 tables (quantized7 q c s) i).1) = (refSecond7 q c i).1 := by
    rw [← (searches_dual (s := s) htile hvalid hdual i).2]
    split <;> rfl
  simp only [e3Bc7, quantized7_mode, quantized7_idxm, hdual, if_true, toNat_idxm_eq_one_iff, hix1, hix2]
  rw [addErrors_eq hP ?_ ?_ herror, indexed7, if_pos hdual]
  · rfl
  · exact hs
  · exact herr

end

/-! ## `E4` -/

/-- The registers of a BC7 encode after `E4`. -/
def fixed7 (q : Bool) (c : Candidate) (s : State) : State :=
  { indexed7 q c s with
    ph := .e4, ep := grid 6 4 (refEp7 q c), pb := (refFields7 q c).pb, ix1 := (refFields7 q c).ix1
    ix2 := if 0 < (tables.bc7 c.mode.toNat).IP2 then (refFields7 q c).ix2 else s.ix2 }

/-- Swapping the endpoints of a region the mode lacks changes nothing: it stores none there. -/
theorem fieldBc7_endOf_congr {d : Desc7} (q : Bool) (c : Candidate) {e : Nat} (ch : Nat) {b b' : Bool}
    (h : e < d.ne → b = b') : fieldBc7 d q c (endOf b e) ch = fieldBc7 d q c (endOf b' e) ch := by
  by_cases he : e < d.ne
  · rw [h he]
  · have hnot (b : Bool) : ¬ (endOf b e < d.ne ∧ ch < d.nch) := fun hlt => he ((endOf_lt_ne_iff d b e).mp hlt.1)
    rw [fieldBc7_of_not (hnot b), fieldBc7_of_not (hnot b')]

theorem pbitBc7_endOf_congr {d : Desc7} (q : Bool) (c : Candidate) {k : Nat} (hNP : d.NP = d.ne) {b b' : Bool}
    (h : k < d.ne → b = b') : pbitBc7 d q c (endOf b k) = pbitBc7 d q c (endOf b' k) := by
  by_cases hk : k < d.ne
  · rw [h hk]
  · have hle (b : Bool) : d.NP ≤ endOf b k := hNP ▸ not_lt.mp fun hlt => hk ((endOf_lt_ne_iff d b k).mp hlt)
    rw [pbitBc7_of_le (hle b), pbitBc7_of_le (hle b')]

theorem rd_refFields7_pb (q : Bool) (c : Candidate) {k : Nat} (hk : k < 6) :
    rd (refFields7 q c).pb k 0 = pbitBc7 (tables.bc7 c.mode.toNat) q c
      (if (tables.bc7 c.mode.toNat).NP = (tables.bc7 c.mode.toNat).ne then endOf (refSwap1 q c (k / 2)) k else k) := by
  rw [refFields7, rd_tab _ _ _ hk]

/-- Array 2 has the colours exactly where `idxm = 1` (R215). -/
theorem mem_refChannels1_of_dual {c : Candidate} (hdual : 0 < (tables.bc7 c.mode.toNat).IP2) {ch : Nat} (hch : ch < 4) :
    ch ∈ refChannels1 c ↔ ¬ (ch < 3 ↔ c.idxm.toNat = 1) := by
  rw [refChannels1, if_neg hdual.ne', toNat_idxm_eq_one_iff]
  by_cases h : c.idxm = 1 <;> interval_cases ch <;> simp only [h, if_true, if_false] <;> decide

theorem bc7_NP_eq_zero_of_dual : ∀ m < 8, 0 < (tables.bc7 m).IP2 → (tables.bc7 m).NP = 0 := by decide

theorem fixup_zero (shape r : Nat) : tables.fixup 0 shape r = 0 := by
  simp [Tables.fixup]

/-- The fixup sees the array-1 indices of the reference. -/
theorem swapsRegion_eq_refSwap1 {q : Bool} {c : Candidate} {u : State} (hs : c.shape.toNat < 64)
    (hshape : u.shape = c.shape.toNat) (hix1 : u.ix1 = tab 16 fun i => (refFirst7 q c i).1) (r : Nat) :
    swapsRegion tables (tables.bc7 c.mode.toNat).P (tables.bc7 c.mode.toNat).IP u r = refSwap1 q c r := by
  simp only [swapsRegion, hshape, hix1, refSwap1]
  rw [rd_tab _ _ _ (fixup_lt _ _ r hs)]

section
variable {q : Bool} {c : Candidate} {u : State} (hvalid : ValidBc7 tables q c) (hshape : u.shape = c.shape.toNat)
  (hep : u.ep = grid 6 4 (fieldBc7 (tables.bc7 c.mode.toNat) q c))
  (hpb : u.pb = tab 6 (pbitBc7 (tables.bc7 c.mode.toNat) q c))
  (hix1 : u.ix1 = tab 16 fun i => (refFirst7 q c i).1)
include hvalid hshape hep hpb hix1

theorem fixRegions_eq_refFields7 (hsingle : (tables.bc7 c.mode.toNat).IP2 = 0) :
    fixRegions tables (tables.bc7 c.mode.toNat).P (tables.bc7 c.mode.toNat).IP
        ((tables.bc7 c.mode.toNat).NP == (tables.bc7 c.mode.toNat).ne) u =
      { u with ep := grid 6 4 (refEp7 q c), pb := (refFields7 q c).pb, ix1 := (refFields7 q c).ix1 } := by
  obtain ⟨-, hP, hs⟩ := validBc7_bounds hvalid
  have hswap := swapsRegion_eq_refSwap1 hs hshape hix1
  have hfix (e : Nat) (he : e < (tables.bc7 c.mode.toNat).ne) :
      fixes (tables.bc7 c.mode.toNat).P (tables.bc7 c.mode.toNat).IP u (e / 2) = refSwap1 q c (e / 2) := by
    rw [Desc7.ne] at he
    rw [fixes, hswap, decide_eq_true (by omega), Bool.true_and]
  rw [fixRegions_eq _ hP (hshape ▸ hs)]
  refine State.fixup_congr ?_ ?_ ?_ rfl
  · refine epFile_ext fun e he ch hch => ?_
    have hmem : ch ∈ refChannels1 c := by
      rw [refChannels1, if_pos hsingle]
      interval_cases ch <;> decide
    rw [epAt_grid _ he hch, epAt_grid _ he hch, refEp7, if_pos hmem, hep, epAt_grid _ (endOf_lt (n := 3) _ he) hch]
    exact fieldBc7_endOf_congr q c ch (hfix e)
  · refine vector_ext_rd _ _ 0 fun k hk => ?_
    rw [rd_tab _ _ _ hk, rd_refFields7_pb q c hk, hpb, rd_tab _ _ _ (endOf_lt (n := 3) _ hk)]
    by_cases hNP : (tables.bc7 c.mode.toNat).NP = (tables.bc7 c.mode.toNat).ne
    · simp only [hNP, beq_self_eq_true, Bool.true_and, if_true]
      exact pbitBc7_endOf_congr q c hNP (hfix k)
    · simp only [hNP, if_false, beq_eq_false_iff_ne.mpr hNP, Bool.false_and, endOf_false]
  · refine vector_ext_rd _ _ 0 fun i hi => ?_
    rw [rd_tab _ _ _ hi, rd_refFields7_ix1 q c hi, hswap, hshape, hix1, rd_tab _ _ _ hi]

omit hshape in
/-- The dual-index modes have one region and no p-bits. -/
theorem fixArrays_eq_refFields7 (hdual : 0 < (tables.bc7 c.mode.toNat).IP2) (hidxm : u.idxm = c.idxm.toNat)
    (hix2 : u.ix2 = tab 16 fun i => (refSecond7 q c i).1) :
    fixArray2 (tables.bc7 c.mode.toNat) (fixArray1 (tables.bc7 c.mode.toNat) u) =
      { u with
        ep := grid 6 4 (refEp7 q c), pb := (refFields7 q c).pb, ix1 := (refFields7 q c).ix1
        ix2 := (refFields7 q c).ix2 } := by
  obtain ⟨hm, -⟩ := validBc7_bounds hvalid
  have hP := bc7_P_eq_zero_of_dual _ hm hdual
  have hNP := bc7_NP_eq_zero_of_dual _ hm hdual
  have hswap1 (r : Nat) : refSwap1 q c r = (rd u.ix1 0 0).testBit ((tables.bc7 c.mode.toNat).IP - 1) := by
    rw [refSwap1, hix1, rd_tab _ _ _ (by decide)]
    simp only [hP, fixup_zero]
  have hswap2 : refSwap2 q c = (rd u.ix2 0 0).testBit ((tables.bc7 c.mode.toNat).IP2 - 1) := by
    rw [refSwap2, hix2, rd_tab _ _ _ (by decide)]
  rw [fixArray2_eq, fixArray1_eq]
  refine State.fixup_congr ?_ ?_ ?_ ?_
  · refine epFile_ext fun e he ch hch => ?_
    simp only [hidxm, ← hswap1 0, ← hswap2, hep]
    rw [epAt_grid _ he hch, epAt_grid _ (endOf_lt (n := 3) _ he) hch, epAt_grid _ he hch,
      epAt_grid _ (endOf_lt (n := 3) _ (endOf_lt (n := 3) _ he)) hch, refEp7]
    have hregion : e < (tables.bc7 c.mode.toNat).ne → e / 2 = 0 := fun hlt => by
      rw [Desc7.ne, hP] at hlt
      omega
    by_cases hsecond : ch < 3 ↔ c.idxm.toNat = 1
    · have hfirst : ¬ (ch < 3 ↔ c.idxm.toNat ≠ 1) := by tauto
      rw [decide_eq_true hsecond, decide_eq_false hfirst, Bool.true_and, Bool.false_and, endOf_false,
        if_neg ((mem_refChannels1_of_dual hdual hch).not.mpr (not_not.mpr hsecond))]
      exact fieldBc7_endOf_congr q c ch fun hlt => by rw [decide_eq_true (hregion hlt), Bool.true_and]
    · have hfirst : ch < 3 ↔ c.idxm.toNat ≠ 1 := by tauto
      rw [decide_eq_false hsecond, decide_eq_true hfirst, Bool.true_and, Bool.false_and, endOf_false,
        if_pos ((mem_refChannels1_of_dual hdual hch).mpr hsecond)]
      exact fieldBc7_endOf_congr q c ch fun hlt => by
        rw [decide_eq_true (hregion hlt), Bool.true_and, hswap1, hswap1]
  · refine vector_ext_rd _ _ 0 fun k hk => ?_
    rw [hpb, rd_tab _ _ _ hk, rd_refFields7_pb q c hk, pbitBc7_of_le (hNP ▸ k.zero_le),
      pbitBc7_of_le (hNP ▸ Nat.zero_le _)]
  · refine vector_ext_rd _ _ 0 fun i hi => ?_
    rw [rd_tab _ _ _ hi, rd_refFields7_ix1 q c hi, hswap1, hix1, rd_tab _ _ _ hi]
  · refine vector_ext_rd _ _ 0 fun i hi => ?_
    rw [rd_tab _ _ _ hi, rd_refFields7_ix2 q c hi, if_neg hdual.ne', hswap2, hix2, rd_tab _ _ _ hi]

end

theorem e4Bc7_indexed7 {q : Bool} {c : Candidate} (hvalid : ValidBc7 tables q c) (s : State) :
    e4Bc7 tables (indexed7 q c s) = fixed7 q c s := by
  obtain hsingle | hdual := Nat.eq_zero_or_pos (tables.bc7 c.mode.toNat).IP2
  · rw [e4Bc7_of_single hsingle]
    refine (fixRegions_eq_refFields7 (u := { indexed7 q c s with ph := .e4 }) hvalid rfl rfl rfl rfl hsingle).trans ?_
    simp only [fixed7, indexed7, hsingle, lt_irrefl, if_false]
  · rw [e4Bc7_of_dual hdual]
    refine (fixArrays_eq_refFields7 (u := { indexed7 q c s with ph := .e4 }) hvalid rfl rfl rfl hdual rfl
      (if_pos hdual)).trans ?_
    simp only [fixed7, indexed7, hdual, if_true]

/-! ## `E6` and `E7` -/

theorem grid_congr {α : Type} {a b : Nat} {f g : Nat → Nat → α} (h : ∀ i < a, ∀ j < b, f i j = g i j) :
    grid a b f = grid a b g :=
  tab_congr fun i hi => tab_congr fun j hj => h i hi j hj

/-- Array 2 is packed in the dual-index modes alone (R284). -/
theorem fields7_congr_ix2 (m : Nat) (f : Bc7Fields) {v : Vector Nat 16} (h : 0 < (tables.bc7 m).IP2 → v = f.ix2) :
    { f with ix2 := v }.fields tables m = f.fields tables m := by
  by_cases hdual : 0 < (tables.bc7 m).IP2
  · rw [h hdual]
  · simp only [Bc7Fields.fields, hdual, if_false]

/-- The registers hold the fields of the reference, array 2 where the mode has it. -/
theorem regFields7_eq {q : Bool} {c : Candidate} {u : State} (hshape : u.shape = c.shape.toNat)
    (hrot : u.rot = c.rot.toNat) (hidxm : u.idxm = c.idxm.toNat) (hep : u.ep = grid 6 4 (refEp7 q c))
    (hpb : u.pb = (refFields7 q c).pb) (hix1 : u.ix1 = (refFields7 q c).ix1) :
    regFields7 u = { refFields7 q c with ix2 := u.ix2 } := by
  have hgrid : (grid 6 4 fun e ch => (epAt u.ep e ch).toNat) = grid 6 4 fun e ch => (refEp7 q c e ch).toNat :=
    grid_congr fun e he ch hch => by rw [hep, epAt_grid _ he hch]
  rw [regFields7, hgrid, hshape, hrot, hidxm, hpb, hix1]
  rfl

/-- The registers after an answered BC7 encode. -/
def State.encoded7 (q : Bool) (c : Candidate) (s : State) : State :=
  { s with
    mode := c.mode.toNat, shape := c.shape.toNat, rot := c.rot.toNat, idxm := c.idxm.toNat
    ep := grid 6 4 (refEp7 q c), pb := (refFields7 q c).pb, ix1 := (refFields7 q c).ix1
    ix2 := if 0 < (tables.bc7 c.mode.toNat).IP2 then (refFields7 q c).ix2 else s.ix2
    err := tab 3 fun r => regionSum (tables.bc7 c.mode.toNat).P c.shape.toNat r (refErr7 q c)
    errtot := tileSum (refErr7 q c)
    status := .ok, ph := .e7, cur := 128, blk := encode7 c.mode.toNat (refFields7 q c)
    rsp := some (Response.encoded (encode7 c.mode.toNat (refFields7 q c)) (tileSum (refErr7 q c))
      (tab 3 fun r => regionSum (tables.bc7 c.mode.toNat).P c.shape.toNat r (refErr7 q c))) }

theorem putAll_refFields7 {q : Bool} {c : Candidate} (hvalid : ValidBc7 tables q c) {u : State} (hcur : u.cur = 0)
    (hblk : u.blk = 0) :
    State.putAll ((refFields7 q c).fields tables c.mode.toNat) u =
      { u with blk := encode7 c.mode.toNat (refFields7 q c), cur := 128 } := by
  obtain ⟨hm, -⟩ := validBc7_bounds hvalid
  have htotal := totalWidth_fields7 hm (refFields7_wf hvalid).1
  rw [State.putAll_of_le _ _ (by rw [hcur, htotal]), hcur, hblk, htotal]
  rfl

theorem e3Bc7_quantized7 {q : Bool} {c : Candidate} {s : State} (htile : s.tile = c.tile)
    (hvalid : ValidBc7 tables q c) (herr : s.err = tab 3 fun _ => 0) :
    e3Bc7 tables (quantized7 q c s) = indexed7 q c s := by
  obtain hsingle | hdual := Nat.eq_zero_or_pos (tables.bc7 c.mode.toNat).IP2
  · exact e3Bc7_of_single htile hvalid herr hsingle
  · exact e3Bc7_of_dual htile hvalid herr hdual

theorem e6Bc7_fixed7 {q : Bool} {c : Candidate} (hvalid : ValidBc7 tables q c) {s : State} (hcur : s.cur = 0)
    (hblk : s.blk = 0) :
    e6Bc7 tables (e5Bc7 (fixed7 q c s)) =
      { fixed7 q c s with ph := .e6, blk := encode7 c.mode.toNat (refFields7 q c), cur := 128 } := by
  have hfields : (regFields7 (e5Bc7 (fixed7 q c s))).fields tables c.mode.toNat =
      (refFields7 q c).fields tables c.mode.toNat := by
    have hreg : regFields7 (e5Bc7 (fixed7 q c s)) =
        { refFields7 q c with ix2 := (e5Bc7 (fixed7 q c s)).ix2 } := by
      apply regFields7_eq <;> simp only [e5Bc7, fixed7, indexed7, quantized7]
    rw [hreg, fields7_congr_ix2]
    exact fun hdual => if_pos hdual
  refine (congrArg (State.putAll · _) hfields).trans ?_
  exact putAll_refFields7 (u := { fixed7 q c s with ph := .e6 }) hvalid hcur hblk

/-- A BC7 encode of a valid candidate, from a state that has just accepted it. -/
theorem encodeBc7_eq_encoded7 {q : Bool} {c : Candidate} {s : State} (hvalid : ValidBc7 tables q c)
    (htile : s.tile = c.tile) (herr : s.err = tab 3 fun _ => 0) (hcur : s.cur = 0) (hblk : s.blk = 0) :
    encodeBc7 tables q c s = s.encoded7 q c := by
  rw [encodeBc7, runPhases_cons_eq (e0Bc7_of_valid hvalid s) (by simp [loadCandidate]),
    runPhases_cons_of_ne _ _ _ (by simp [e1Bc7]), runPhases_cons_of_ne _ _ _ (by simp [e2Palette]), e2Palette_e1Bc7,
    runPhases_cons_eq (e3Bc7_quantized7 htile hvalid herr) (by simp [indexed7]),
    runPhases_cons_eq (e4Bc7_indexed7 hvalid s) (by simp [fixed7]), runPhases_cons_of_ne _ _ _ (by simp [e5Bc7]),
    runPhases_cons_eq (e6Bc7_fixed7 hvalid hcur hblk) (by simp), runPhases_e6Check _ (by simp), if_pos rfl]
  simp only [State.respondEnc, State.encoded7, fixed7, indexed7, quantized7]

/-- Settles O37. -/
theorem bc7EncodePacksTheCandidate : Obligations.Bc7EncodePacksTheCandidate := by
  intro q c s hvalid
  refine ⟨(s.acceptEnc (encOp q) 0 c).encoded7 q c, ?_, ?_⟩
  · rw [exec_encInstr_bc7, encodeBc7_eq_encoded7 hvalid rfl rfl rfl rfl]
  · simp only [State.encoded7]
    exact ⟨trivial, trivial, trivial, rfl, rfl, rfl, refFields7_wf hvalid, trivial, trivial, rfl, rfl, rfl,
      fun e he ch hch => epAt_grid _ he hch, trivial, trivial, fun hdual => if_pos hdual, rfl, trivial, trivial⟩

end Sys2Proof.Machine
end

section
/-! PROOFS. The BC6H `ENC*` (47_encoder.md sections 3 to 8): the reference fields are well formed, and the phases `E0` to
`E7` of a valid candidate that fits leave exactly them, their block and their errors. -/

-- Elaborated in order: the stack of each thread that waits for another counts against the check's memory limit.
set_option Elab.async false

namespace Sys2Proof.Machine

/-! ## The reference fields -/

theorem refSearch6_fst_lt (q sg : Bool) (c : Candidate) (i : Nat) :
    (refSearch6 q sg c i).1 < 2 ^ (tables.bc6h c.mode.toNat).IP :=
  nearest_fst_lt _ _

theorem cell_refFields6_ep (q sg : Bool) (c : Candidate) {k ch : Nat} (hk : k < 4) (hch : ch < 3) :
    cell (refFields6 q sg c).ep k ch 0 =
      (refStored6 q sg c k ch % 2 ^ (tables.bc6h c.mode.toNat).epWidth k ch).toNat := by
  rw [refFields6, cell_grid _ _ _ _ hk hch]

theorem rd_refFields6_ix (q sg : Bool) (c : Candidate) {i : Nat} (hi : i < 16) :
    rd (refFields6 q sg c).ix i 0 =
      mirrored (refSwap6 q sg c (tables.region (tables.bc6h c.mode.toNat).P c.shape.toNat i))
        (tables.bc6h c.mode.toNat).IP (refSearch6 q sg c i).1 := by
  rw [refFields6, rd_tab _ _ _ hi]

/-- The reference fields of a valid candidate fit its mode: an endpoint is stored modulo its width. -/
theorem refFields6_wf {q sg : Bool} {c : Candidate} (hvalid : ValidBc6h tables q sg c) :
    (refFields6 q sg c).WF c.mode.toNat := by
  obtain ⟨hP, hs⟩ := validBc6h_bounds hvalid
  have hvalid' := hvalid
  obtain ⟨-, hshape, -⟩ := hvalid'
  refine ⟨hshape, fun k hk ch hch => ?ep, fun i hi => ?ix⟩
  case ep =>
    rw [cell_refFields6_ep q sg c hk hch, Int.toNat_lt (Int.emod_nonneg _ (by positivity))]
    exact_mod_cast Int.emod_lt_of_pos _ (by positivity)
  case ix =>
    rw [rd_refFields6_ix q sg c hi]
    exact mirrored_lt_idxWidth (by omega) hs (refSearch6_fst_lt q sg c) i

theorem validBc6h_mode {q sg : Bool} {c : Candidate} (hvalid : ValidBc6h tables q sg c) :
    ∃ k : Fin 14, c.mode.toNat = k + 1 := by
  obtain ⟨⟨hlo, hhi⟩, -⟩ := hvalid
  exact exists_fin14 (by omega) hlo

/-! ## `E1` to `E4` -/

/-- The registers of a BC6H encode after `E4`. -/
def fixed6 (q : Bool) (c : Candidate) (s : State) : State :=
  { s with
    ph := .e4, mode := c.mode.toNat, shape := c.shape.toNat, rot := c.rot.toNat, idxm := c.idxm.toNat
    ep := grid 6 4 fun e ch =>
      refQ6 q (sgOf s.fmt) c (endOf (refSwap6 q (sgOf s.fmt) c (e / 2)) e) ch
    ix1 := (refFields6 q (sgOf s.fmt) c).ix
    err := tab 3 fun r =>
      regionSum (tables.bc6h c.mode.toNat).P c.shape.toNat r fun i => (refSearch6 q (sgOf s.fmt) c i).2
    errtot := tileSum fun i => (refSearch6 q (sgOf s.fmt) c i).2 }

/-- Swapping the endpoints of a region the mode lacks changes nothing. -/
theorem refQ6_endOf_congr (q sg : Bool) (c : Candidate) {e : Nat} (ch : Nat) {b b' : Bool}
    (h : e < (tables.bc6h c.mode.toNat).ne → b = b') : refQ6 q sg c (endOf b e) ch = refQ6 q sg c (endOf b' e) ch := by
  by_cases he : e < (tables.bc6h c.mode.toNat).ne
  · rw [h he]
  · have hnot (b : Bool) : ¬ (endOf b e < (tables.bc6h c.mode.toNat).ne ∧ ch < 3) := by
      have hdiv := endOf_div_two b e
      rw [Desc6.ne] at he ⊢
      omega
    rw [refQ6, refQ6, endpointBc6h, endpointBc6h, if_neg (hnot b), if_neg (hnot b')]

section
variable {q : Bool} {c : Candidate} {s : State} (htile : s.tile = c.tile)
  (hvalid : ValidBc6h tables q (sgOf s.fmt) c) (herr : s.err = tab 3 fun _ => 0)
include htile hvalid herr

theorem indexed6_eq :
    indexed6 q c s =
      { quantized6 q c s with
        ph := .e4, ix1 := tab 16 fun i => (refSearch6 q (sgOf s.fmt) c i).1
        err := tab 3 fun r =>
          regionSum (tables.bc6h c.mode.toNat).P c.shape.toNat r fun i => (refSearch6 q (sgOf s.fmt) c i).2
        errtot := tileSum fun i => (refSearch6 q (sgOf s.fmt) c i).2 } := by
  obtain ⟨hP, hs⟩ := validBc6h_bounds hvalid
  have hix1 : (tab 16 fun i => (search6 tables (quantized6 q c s) i).1) =
      tab 16 fun i => (refSearch6 q (sgOf s.fmt) c i).1 :=
    tab_congr fun i hi => by rw [search6_quantized6 htile hvalid hi]
  have herror : ∀ i < 16, (search6 tables (quantized6 q c s) i).2 = (refSearch6 q (sgOf s.fmt) c i).2 := fun i hi => by
    rw [search6_quantized6 htile hvalid hi]
  rw [indexed6, e3Bc6h, quantized6_mode, hix1, addErrors_eq (by omega) ?_ ?_ herror]
  · rfl
  · exact hs
  · exact herr

end

/-- The fixup turns quantized endpoints and search results into the reference's (R218). -/
theorem fixRegions_eq_refFields6 {q sg : Bool} {c : Candidate} {u : State} (hvalid : ValidBc6h tables q sg c)
    (hshape : u.shape = c.shape.toNat) (hep : u.ep = grid 6 4 (refQ6 q sg c))
    (hix1 : u.ix1 = tab 16 fun i => (refSearch6 q sg c i).1) :
    fixRegions tables (tables.bc6h c.mode.toNat).P (tables.bc6h c.mode.toNat).IP false u =
      { u with
        ep := grid 6 4 fun e ch => refQ6 q sg c (endOf (refSwap6 q sg c (e / 2)) e) ch
        ix1 := (refFields6 q sg c).ix } := by
  obtain ⟨hP, hs⟩ := validBc6h_bounds hvalid
  have hswap (r : Nat) :
      swapsRegion tables (tables.bc6h c.mode.toNat).P (tables.bc6h c.mode.toNat).IP u r = refSwap6 q sg c r := by
    simp only [swapsRegion, hshape, hix1, refSwap6]
    rw [rd_tab _ _ _ (fixup_lt _ _ r hs)]
  rw [fixRegions_eq _ (by omega) (hshape ▸ hs)]
  refine State.fixup_congr ?_ ?_ ?_ rfl
  · refine epFile_ext fun e he ch hch => ?_
    rw [epAt_grid _ he hch, epAt_grid _ he hch, hep, epAt_grid _ (endOf_lt (n := 3) _ he) hch]
    refine refQ6_endOf_congr q sg c ch fun hlt => ?_
    rw [Desc6.ne] at hlt
    rw [fixes, hswap, decide_eq_true (by omega), Bool.true_and]
  · simp only [Bool.false_and, endOf_false, tab_rd]
  · refine vector_ext_rd _ _ 0 fun i hi => ?_
    rw [rd_tab _ _ _ hi, rd_refFields6_ix q sg c hi, hswap, hshape, hix1, rd_tab _ _ _ hi]

theorem quantized6_ep (q : Bool) (c : Candidate) (s : State) :
    (quantized6 q c s).ep = grid 6 4 (refQ6 q (sgOf s.fmt) c) := rfl

/-- The registers after the fixup are those of the reference. -/
theorem afterFixup6_eq {q : Bool} {c : Candidate} {s : State} (htile : s.tile = c.tile)
    (hvalid : ValidBc6h tables q (sgOf s.fmt) c) (herr : s.err = tab 3 fun _ => 0) :
    afterFixup6 tables q c s = fixed6 q c s := by
  rw [afterFixup6_eq_fixRegions, indexed6_eq htile hvalid herr, fixRegions_eq_refFields6 (sg := sgOf s.fmt) hvalid]
  · simp only [quantized6, e2Palette, e1Bc6h, loadCandidate, fixed6]
  · exact quantized6_shape q c s
  · exact quantized6_ep q c s
  · rfl

/-! ## `E5` to `E7` -/

/-- The registers hold the fields of the reference (R189, R285). -/
theorem regFields6_eq {q sg : Bool} {c : Candidate} {u : State} (hshape : u.shape = c.shape.toNat)
    (hep : u.ep = grid 6 4 fun e ch => refQ6 q sg c (endOf (refSwap6 q sg c (e / 2)) e) ch)
    (hix1 : u.ix1 = (refFields6 q sg c).ix) : regFields6 (tables.bc6h c.mode.toNat) u = refFields6 q sg c := by
  have hstored : ∀ k < 4, ∀ ch < 3, stored6 (tables.bc6h c.mode.toNat) (epAt u.ep) k ch = refStored6 q sg c k ch :=
    fun k hk ch hch => by
      rw [refStored6, stored6, stored6, hep, epAt_grid _ (by omega) (by omega), epAt_grid _ (by omega) (by omega)]
  have hgrid : (grid 4 3 fun k ch =>
      (stored6 (tables.bc6h c.mode.toNat) (epAt u.ep) k ch % 2 ^ (tables.bc6h c.mode.toNat).epWidth k ch).toNat) =
      grid 4 3 fun k ch => (refStored6 q sg c k ch % 2 ^ (tables.bc6h c.mode.toNat).epWidth k ch).toNat :=
    grid_congr fun k hk ch hch => by rw [hstored k hk ch hch]
  rw [regFields6, hgrid, hshape, hix1]
  rfl

theorem putAll_refFields6 {q sg : Bool} {c : Candidate} (hvalid : ValidBc6h tables q sg c) {u : State} (hcur : u.cur = 0)
    (hblk : u.blk = 0) :
    State.putAll ((refFields6 q sg c).fields tables c.mode.toNat) u =
      { u with blk := encode6 c.mode.toNat (refFields6 q sg c), cur := 128 } := by
  obtain ⟨k, hk⟩ := validBc6h_mode hvalid
  have hshape := (refFields6_wf hvalid).1
  have htotal : totalWidth (((refFields6 q sg c).fields tables c.mode.toNat).map Prod.fst) = 128 := by
    rw [hk] at hshape ⊢
    exact totalWidth_fields6 k hshape
  rw [State.putAll_of_le _ _ (by rw [hcur, htotal]), hcur, hblk, htotal]
  rfl

theorem e6Bc6h_fixed6 {q : Bool} {c : Candidate} {s : State} (hvalid : ValidBc6h tables q (sgOf s.fmt) c)
    (hcur : s.cur = 0) (hblk : s.blk = 0) :
    e6Bc6h tables { fixed6 q c s with ph := .e5 } =
      { fixed6 q c s with ph := .e6, blk := encode6 c.mode.toNat (refFields6 q (sgOf s.fmt) c), cur := 128 } := by
  have hreg : regFields6 (tables.bc6h c.mode.toNat) { fixed6 q c s with ph := .e5 } = refFields6 q (sgOf s.fmt) c := by
    apply regFields6_eq <;> simp only [fixed6]
  refine (congrArg (fun f => State.putAll (f.fields tables c.mode.toNat) _) hreg).trans ?_
  exact putAll_refFields6 (u := { fixed6 q c s with ph := .e6 }) hvalid hcur hblk

/-- The registers after an answered BC6H encode. -/
def State.encoded6 (q : Bool) (c : Candidate) (s : State) : State :=
  { s with
    mode := c.mode.toNat, shape := c.shape.toNat, rot := c.rot.toNat, idxm := c.idxm.toNat
    ep := grid 6 4 fun e ch => refQ6 q (sgOf s.fmt) c (endOf (refSwap6 q (sgOf s.fmt) c (e / 2)) e) ch
    ix1 := (refFields6 q (sgOf s.fmt) c).ix
    err := tab 3 fun r =>
      regionSum (tables.bc6h c.mode.toNat).P c.shape.toNat r fun i => (refSearch6 q (sgOf s.fmt) c i).2
    errtot := tileSum fun i => (refSearch6 q (sgOf s.fmt) c i).2
    status := .ok, ph := .e7, cur := 128, blk := encode6 c.mode.toNat (refFields6 q (sgOf s.fmt) c)
    rsp := some (Response.encoded (encode6 c.mode.toNat (refFields6 q (sgOf s.fmt) c))
      (tileSum fun i => (refSearch6 q (sgOf s.fmt) c i).2)
      (tab 3 fun r =>
        regionSum (tables.bc6h c.mode.toNat).P c.shape.toNat r fun i => (refSearch6 q (sgOf s.fmt) c i).2)) }

section
variable {q : Bool} {c : Candidate} {s : State} (htile : s.tile = c.tile)
  (hvalid : ValidBc6h tables q (sgOf s.fmt) c) (herr : s.err = tab 3 fun _ => 0)
include htile hvalid herr

/-- A BC6H encode of a valid candidate that fits, from a state that has just accepted it. -/
theorem encodeBc6h_eq_encoded6 (hfits : FitsBc6h q (sgOf s.fmt) c) (hcur : s.cur = 0) (hblk : s.blk = 0) :
    encodeBc6h tables q c s = s.encoded6 q c := by
  have hfit := (fits6_afterFixup6_iff htile hvalid).mpr hfits
  rw [afterFixup6_eq htile hvalid herr] at hfit
  rw [encodeBc6h_of_valid hvalid, afterFixup6_eq htile hvalid herr, runPhases_cons_eq (e5Bc6h_of_fits hfit) (by simp),
    runPhases_cons_eq (e6Bc6h_fixed6 hvalid hcur hblk) (by simp), runPhases_e6Check _ (by simp), if_pos rfl]
  simp only [State.respondEnc, State.encoded6, fixed6]

/-- One that does not fit leaves the registers as the fixup left them. -/
theorem encodeBc6h_eq_of_not_fits (hfits : ¬ FitsBc6h q (sgOf s.fmt) c) :
    encodeBc6h tables q c s = { fixed6 q c s with ph := .e5 }.raise .noFit := by
  have hfit := mt (fits6_afterFixup6_iff htile hvalid).mp hfits
  rw [afterFixup6_eq htile hvalid herr] at hfit
  have he5 := e5Bc6h_of_not_fits hfit
  rw [encodeBc6h_of_valid hvalid, afterFixup6_eq htile hvalid herr, runPhases_cons_of_fault _ _ _ (by simp [he5]), he5]

end

/-- Settles O38. -/
theorem bc6hEncodePacksTheCandidate : Obligations.Bc6hEncodePacksTheCandidate := by
  intro q fmt c s hfmt
  dsimp only
  intro hvalid hfits
  have hsg : sgOf (s.acceptEnc (encOp q) (BitVec.ofNat 2 fmt) c).fmt = (fmt == 2) := sgOf_fmt fmt
  refine ⟨(s.acceptEnc (encOp q) (BitVec.ofNat 2 fmt) c).encoded6 q c, ?_, ?_⟩
  · rw [exec_encInstr_bc6h q fmt c s hfmt, encodeBc6h_eq_encoded6 rfl (hsg ▸ hvalid) rfl (hsg ▸ hfits) rfl rfl]
  · have hwf := refFields6_wf hvalid
    obtain ⟨-, -, hrot, hidxm, -⟩ := hvalid
    simp only [State.encoded6, hsg, hrot, hidxm]
    exact ⟨trivial, trivial, trivial, rfl, rfl, rfl, hwf, trivial, trivial, rfl, rfl, rfl,
      fun e he ch hch => epAt_grid _ he hch, rfl, trivial, rfl, trivial, trivial⟩

end Sys2Proof.Machine
end

section
/-! PROOFS. The quantized BC6H endpoints fit their precision (R182, R190), so a candidate of an untransformed mode always
fits (R288). -/

-- Elaborated in order: the stack of each thread that waits for another counts against the check's memory limit.
set_option Elab.async false

namespace Sys2Proof.Machine

theorem mul_two_pow_div_lt {m : Int} (hm : m < 31744) (n : Nat) : m * 2 ^ n / 31744 < 2 ^ n := by
  have hpow : (0 : Int) < 2 ^ n := by positivity
  exact Int.ediv_lt_of_lt_mul (by decide) (by nlinarith)

theorem mul_two_pow_div_nonneg {m : Int} (hm : 0 ≤ m) (n : Nat) : 0 ≤ m * 2 ^ n / 31744 :=
  Int.ediv_nonneg (by positivity) (by decide)

/-- The quantizer answers a `p`-bit number (R181, R182). -/
theorem fits_q6 {v : Int} {p : Nat} {sg : Bool} (hlo : lo6 tables sg ≤ v) (hhi : v ≤ tables.f16max) :
    fits (q6 tables.f16max v p sg) p sg = true := by
  have hf : (tables.f16max : Int) = 31743 := rfl
  rw [hf] at hhi
  cases sg with
  | false =>
    have hlo' : 0 ≤ v := hlo
    rw [fits_unsigned_iff, q6, if_pos rfl, hf]
    split
    next hp =>
      have hpow : (2 : Int) ^ 15 ≤ 2 ^ p := pow_le_pow_right₀ (by decide) hp
      omega
    next =>
      have hlt := mul_two_pow_div_lt (m := v) (by omega) p
      have h0 := mul_two_pow_div_nonneg hlo' p
      exact ⟨h0, Int.le_sub_one_of_lt hlt⟩
  | true =>
    have hlo' : -31743 ≤ v := hlo
    have hm0 : (0 : Int) ≤ v.natAbs := Int.natCast_nonneg _
    have hm : (v.natAbs : Int) < 31744 := by omega
    obtain ⟨hq0, hq⟩ : 0 ≤ (if 16 ≤ p then (v.natAbs : Int) else v.natAbs * 2 ^ (p - 1) / (31743 + 1)) ∧
        (if 16 ≤ p then (v.natAbs : Int) else v.natAbs * 2 ^ (p - 1) / (31743 + 1)) < 2 ^ (p - 1) := by
      split
      next hp =>
        have hpow : (2 : Int) ^ 15 ≤ 2 ^ (p - 1) := pow_le_pow_right₀ (by decide) (by omega)
        exact ⟨hm0, by omega⟩
      next => exact ⟨mul_two_pow_div_nonneg hm0 _, mul_two_pow_div_lt hm _⟩
    rw [fits_signed_iff, q6, if_neg (by decide), hf]
    dsimp only
    split <;> constructor <;> omega

/-- The quantized endpoints of a valid candidate are `EP`-bit numbers (R275, R279). -/
theorem fits_refQ6 {q sg : Bool} {c : Candidate} (hvalid : ValidBc6h tables q sg c) {e ch : Nat}
    (he : e < (tables.bc6h c.mode.toNat).ne) (hch : ch < 3) :
    fits (refQ6 q sg c e ch) (tables.bc6h c.mode.toNat).EP sg = true := by
  obtain ⟨-, -, -, -, -, hep⟩ := hvalid
  have h := hep e he ch hch
  rw [refQ6, endpointBc6h, if_pos ⟨he, hch⟩]
  cases q with
  | true => exact fits_q6 h.1 h.2
  | false => exact h

theorem endOf_lt_ne6_iff (d : Desc6) (b : Bool) (e : Nat) : endOf b e < d.ne ↔ e < d.ne := by
  have hdiv := endOf_div_two b e
  rw [Desc6.ne]
  omega

/-- Without a transform a field is as wide as an endpoint. -/
theorem fitsBc6h_of_untransformed {q sg : Bool} {c : Candidate} (hvalid : ValidBc6h tables q sg c)
    (htr : (tables.bc6h c.mode.toNat).tr = false) : FitsBc6h q sg c := by
  obtain ⟨j, hj⟩ := validBc6h_mode hvalid
  obtain ⟨-, -, hwidth⟩ := bc6h_endpoint_widths j
  rw [← hj] at hwidth
  simp only [FitsBc6h, fits6, List.all_eq_true, List.mem_range]
  intro k hk ch hch
  have hk0 : 0 < (tables.bc6h c.mode.toNat).ne := by omega
  have hfit (e : Nat) (he : e < (tables.bc6h c.mode.toNat).ne) :
      fits (refStored6 q sg c e ch) (tables.bc6h c.mode.toNat).EP sg = true := by
    have hstored : refStored6 q sg c e ch = refQ6 q sg c (endOf (refSwap6 q sg c (e / 2)) e) ch := by
      simp [refStored6, stored6, htr]
    rw [hstored]
    exact fits_refQ6 hvalid ((endOf_lt_ne6_iff _ _ _).mpr he) hch
  split
  · exact hfit 0 hk0
  · rw [htr, Bool.or_false, hwidth htr ch hch]
    exact hfit k hk

theorem untransformed_modes : ∀ m ∈ [10, 11], (tables.bc6h m).tr = false := by decide

/-- Settles O41: BC7 has no fit check, and modes 10 and 11 store the quantized endpoints. -/
theorem encodingAlwaysHasACandidate : Obligations.EncodingAlwaysHasACandidate := by
  intro q fmt c s hvalid hmode
  by_cases hfmt : fmt = 0
  · subst hfmt
    rw [exec_encInstr_bc7, encodeBc7_eq_encoded7 ((validCandidate_zero q c).mp hvalid) rfl rfl rfl rfl]
    exact ⟨_, _, _, _, rfl, rfl, rfl⟩
  · have hmem : c.mode.toNat ∈ [10, 11] := by
      obtain h | h := hmode.resolve_left hfmt <;> rw [h] <;> decide
    rw [validCandidate_of_ne hfmt, ← sgOf_fmt] at hvalid
    have hfits := fitsBc6h_of_untransformed hvalid (untransformed_modes _ hmem)
    rw [exec_encInstr_bc6h q fmt c s hfmt, encodeBc6h_eq_encoded6 (s := s.acceptEnc (encOp q) (BitVec.ofNat 2 fmt) c) rfl
      hvalid rfl hfits rfl rfl]
    exact ⟨_, _, _, _, rfl, rfl, rfl⟩

end Sys2Proof.Machine
end

section
/-! PROOFS. What a command answers whatever the registers hold, the codes no well-formed instruction ends with, and the
coherence of handshake, phase and response (R28, R33, R34, R303 to R306). -/

-- Elaborated in order: the stack of each thread that waits for another counts against the check's memory limit.
set_option Elab.async false

namespace Sys2Proof.Machine

/-! ## The four ends of an `ENC*` -/

/-- A refused candidate, a packed block of either family, or a candidate that does not fit. -/
theorem exec_encInstr_cases (q : Bool) (fmt : Fin 3) (c : Candidate) :
    (¬ ValidCandidate q fmt c ∧ ∀ s, exec (encInstr q fmt c) s =
      .next ((s.acceptEnc (encOp q) (BitVec.ofNat 2 fmt) c).raise .badCandidate)) ∨
    (fmt = 0 ∧ ValidBc7 tables q c ∧ ∀ s, exec (encInstr q fmt c) s =
      .next ((s.acceptEnc (encOp q) 0 c).encoded7 q c)) ∨
    (fmt ≠ 0 ∧ ValidBc6h tables q (fmt == 2) c ∧ FitsBc6h q (fmt == 2) c ∧ ∀ s, exec (encInstr q fmt c) s =
      .next ((s.acceptEnc (encOp q) (BitVec.ofNat 2 fmt) c).encoded6 q c)) ∨
    (fmt ≠ 0 ∧ ValidBc6h tables q (fmt == 2) c ∧ ∀ s, exec (encInstr q fmt c) s =
      .next (({ fixed6 q c (s.acceptEnc (encOp q) (BitVec.ofNat 2 fmt) c) with ph := .e5 } : State).raise .noFit)) := by
  by_cases hvalid : ValidCandidate q fmt c
  · by_cases hfmt : fmt = 0
    · subst hfmt
      rw [validCandidate_zero] at hvalid
      refine .inr (.inl ⟨rfl, hvalid, fun s => ?_⟩)
      rw [exec_encInstr_bc7, encodeBc7_eq_encoded7 hvalid rfl rfl rfl rfl]
    · rw [validCandidate_of_ne hfmt] at hvalid
      have hvalid' (s : State) : ValidBc6h tables q (sgOf (s.acceptEnc (encOp q) (BitVec.ofNat 2 fmt) c).fmt) c := by
        rwa [State.acceptEnc_fmt, sgOf_fmt]
      by_cases hfits : FitsBc6h q (fmt == 2) c
      · refine .inr (.inr (.inl ⟨hfmt, hvalid, hfits, fun s => ?_⟩))
        rw [exec_encInstr_bc6h q fmt c s hfmt, encodeBc6h_eq_encoded6 rfl (hvalid' s) rfl ?_ rfl rfl]
        rwa [State.acceptEnc_fmt, sgOf_fmt]
      · refine .inr (.inr (.inr ⟨hfmt, hvalid, fun s => ?_⟩))
        rw [exec_encInstr_bc6h q fmt c s hfmt, encodeBc6h_eq_of_not_fits rfl (hvalid' s) rfl ?_]
        rwa [State.acceptEnc_fmt, sgOf_fmt]
  · exact .inl ⟨hvalid, fun s => invalidCandidateIsRefused q fmt c s hvalid⟩

/-! ## The codes -/

/-- The codes BC67 produces with the supplied tables (R303 to R306). -/
def reachableCodes : List Status := [.ok, .modeSelector, .noFit, .badCandidate, .badCommand]

/-- The instruction answers a next state with a reachable code. -/
def AnswersReachable (i : Instr) (s : State) : Prop := ∃ t, exec i s = .next t ∧ t.status ∈ reachableCodes

theorem mem_reachableCodes {t : State} {c : Status} (h : t.status = c) (hc : c ∈ reachableCodes := by decide) :
    t.status ∈ reachableCodes :=
  h ▸ hc

theorem answersReachable_bc7 (m : Fin 8) (f : Bc7Fields) (s : State) : AnswersReachable (.bc7 m f) s :=
  ⟨_, exec_bc7_eq m f s, mem_reachableCodes (State.decoded7_status _ _ _)⟩

theorem answersReachable_bc6h (k : Fin 14) (f : Bc6hFields) (s : State) : AnswersReachable (.bc6h k f) s :=
  ⟨_, exec_bc6h_eq k f s, mem_reachableCodes (State.decoded6_status _ _ _)⟩

theorem answersReachable_encInstr (q : Bool) (fmt : Fin 3) (c : Candidate) (s : State) :
    AnswersReachable (encInstr q fmt c) s := by
  obtain ⟨-, h⟩ | ⟨-, -, h⟩ | ⟨-, -, -, h⟩ | ⟨-, -, h⟩ := exec_encInstr_cases q fmt c
  · exact ⟨_, h s, mem_reachableCodes (State.raise_status _ _)⟩
  · exact ⟨_, h s, mem_reachableCodes (c := .ok) rfl⟩
  · exact ⟨_, h s, mem_reachableCodes (c := .ok) rfl⟩
  · exact ⟨_, h s, mem_reachableCodes (State.raise_status _ _)⟩

/-- Settles O50: a block with a selector decodes, one without raises `ModeSelector`; a command is accepted, refused or
packed. -/
theorem tableFaultsAreUnreachable : Obligations.TableFaultsAreUnreachable := by
  intro i s _
  have hbc7 := fun m f => answersReachable_bc7 m f s
  have hbc6h := fun k f => answersReachable_bc6h k f s
  have henc := fun q fmt c => answersReachable_encInstr q fmt c s
  obtain ⟨hres7, hres6, -, -⟩ := reservedSelectorsRaise s
  cases i with
  | bc7M0 f => exact hbc7 0 f
  | bc7M1 f => exact hbc7 1 f
  | bc7M2 f => exact hbc7 2 f
  | bc7M3 f => exact hbc7 3 f
  | bc7M4 f => exact hbc7 4 f
  | bc7M5 f => exact hbc7 5 f
  | bc7M6 f => exact hbc7 6 f
  | bc7M7 f => exact hbc7 7 f
  | bc6hM1 f => exact hbc6h 0 f
  | bc6hM2 f => exact hbc6h 1 f
  | bc6hM3 f => exact hbc6h 2 f
  | bc6hM4 f => exact hbc6h 3 f
  | bc6hM5 f => exact hbc6h 4 f
  | bc6hM6 f => exact hbc6h 5 f
  | bc6hM7 f => exact hbc6h 6 f
  | bc6hM8 f => exact hbc6h 7 f
  | bc6hM9 f => exact hbc6h 8 f
  | bc6hM10 f => exact hbc6h 9 f
  | bc6hM11 f => exact hbc6h 10 f
  | bc6hM12 f => exact hbc6h 11 f
  | bc6hM13 f => exact hbc6h 12 f
  | bc6hM14 f => exact hbc6h 13 f
  | bc7Reserved r => exact ⟨_, hres7 r, mem_reachableCodes (c := .modeSelector) rfl⟩
  | bc6hReserved13 r => exact ⟨_, (hres6 r).1, mem_reachableCodes (c := .modeSelector) rfl⟩
  | bc6hReserved17 r => exact ⟨_, (hres6 r).2.1, mem_reachableCodes (c := .modeSelector) rfl⟩
  | bc6hReserved1B r => exact ⟨_, (hres6 r).2.2.1, mem_reachableCodes (c := .modeSelector) rfl⟩
  | bc6hReserved1F r => exact ⟨_, (hres6 r).2.2.2, mem_reachableCodes (c := .modeSelector) rfl⟩
  | decBc7 B => exact ⟨_, (decIsAccepted B s).1, mem_reachableCodes (State.acceptDec_status _ _ _)⟩
  | decBc6hUnsigned B => exact ⟨_, (decIsAccepted B s).2.1, mem_reachableCodes (State.acceptDec_status _ _ _)⟩
  | decBc6hSigned B => exact ⟨_, (decIsAccepted B s).2.2, mem_reachableCodes (State.acceptDec_status _ _ _)⟩
  | encqBc7 c => exact henc true 0 c
  | encqBc6hUnsigned c => exact henc true 1 c
  | encqBc6hSigned c => exact henc true 2 c
  | enceBc7 c => exact henc false 0 c
  | enceBc6hUnsigned c => exact henc false 1 c
  | enceBc6hSigned c => exact henc false 2 c
  | cmdReservedOp fmt => exact ⟨_, (exec_reserved fmt s).1, mem_reachableCodes (State.acceptBad_status _ _ _)⟩
  | cmdReservedFmt op => exact ⟨_, (exec_reserved op s).2, mem_reachableCodes (State.acceptBad_status _ _ _)⟩

/-! ## One response for a command -/

/-- Commands on the same operands decode to the same instruction. -/
theorem decode_cmd_congr {c d : Cmd} (h : SameOperands c d) : decode (.cmd c) = decode (.cmd d) := by
  obtain ⟨hop, hfmt, hoperands⟩ := h
  simp only [decode, decodeCmd, ← hop, ← hfmt]
  by_cases hop3 : c.op = 3
  · rw [if_pos hop3, if_pos hop3]
  by_cases hfmt3 : c.fmt = 3
  · rw [if_neg hop3, if_neg hop3, if_pos hfmt3, if_pos hfmt3]
  obtain ⟨hblk, hcand⟩ := hoperands hfmt3
  rw [if_neg hop3, if_neg hop3, if_neg hfmt3, if_neg hfmt3]
  by_cases hop0 : c.op = 0
  · rw [if_pos hop0, if_pos hop0, hblk hop0]
  · have hops : ∀ x : BitVec 2, x ≠ 0 → x ≠ 3 → x = 1 ∨ x = 2 := by decide
    rw [if_neg hop0, if_neg hop0, hcand (hops c.op hop0 hop3)]

/-- An `ENC*` has the response its operands determine. -/
theorem exec_encInstr_response (q : Bool) (fmt : Fin 3) (c : Candidate) :
    ∃ r, ∀ s, ∃ t, exec (encInstr q fmt c) s = .next t ∧ t.rsp = some r ∧ t.busy = true := by
  obtain ⟨-, h⟩ | ⟨-, -, h⟩ | ⟨-, -, -, h⟩ | ⟨-, -, h⟩ := exec_encInstr_cases q fmt c
  · exact ⟨_, fun s => ⟨_, h s, rfl, rfl⟩⟩
  · exact ⟨_, fun s => ⟨_, h s, rfl, rfl⟩⟩
  · exact ⟨_, fun s => ⟨_, h s, by simp only [State.encoded6, State.acceptEnc_fmt]; rfl, rfl⟩⟩
  · exact ⟨_, fun s => ⟨_, h s, rfl, rfl⟩⟩

theorem run_succ_of_step {M : Host.Core} {s t : M.State} (h : M.step s = .next t) (n : Nat) :
    M.run (n + 1) s = M.run n t := by
  rw [Host.Core.run, h]

theorem run_one {s t : State} (h : step s = .next t) : (core.run 1 s : Host.Outcome State Fault Refusal) = .next t :=
  run_succ_of_step (M := core) h 0

theorem run_two {s t u : State} (h : step s = .next t) (h' : step t = .next u) :
    (core.run 2 s : Host.Outcome State Fault Refusal) = .next u :=
  (run_succ_of_step (M := core) h 1).trans (run_one h')

/-- Inputs without reset stay without reset. -/
theorem input_rst_of_forall {s : State} (h : ∀ p ∈ s.inputs, p.rst = false) : s.afterInput.input.rst = false := by
  have htail : ∀ p ∈ s.inputs.tail, p.rst = false := fun p hp => h p (List.mem_of_mem_tail hp)
  rw [State.input, State.afterInput]
  cases hinputs : s.inputs.tail with
  | nil => rfl
  | cons p ps => exact htail p (by rw [hinputs]; exact List.mem_cons_self)

theorem presents_of_sameOperands {c d : Cmd} (h : SameOperands c d) {s : State} (hpres : s.Presents d) :
    step s = exec (decode (.cmd c)) s.afterInput := by
  rw [step_of_presents hpres, decode_cmd_congr h]

/-- Settles O55: a reserved command and an `ENC*` are answered by the step that accepts them, a `DEC` by the next; none
of the responses depends on the state. -/
theorem everyCommandHasOneResponse : Obligations.EveryCommandHasOneResponse := by
  intro c
  by_cases hres : c.op = 3 ∨ c.fmt = 3
  · refine ⟨Response.statusOnly .badCommand, fun d s hsame hpres _ => ?_⟩
    have hstep := (presents_of_sameOperands hsame hpres).trans (exec_decode_cmd_of_reserved hres _)
    have hsteps : opSteps d = 1 := by
      rw [opSteps, ← hsame.1, ← hsame.2.1]
      exact if_neg fun h => hres.elim (fun h3 => absurd (h.1.symm.trans h3) (by decide)) h.2
    rw [hsteps]
    exact ⟨_, run_one hstep, rfl, rfl⟩
  obtain ⟨hop3, hfmt⟩ := not_or.mp hres
  by_cases hop : c.op = 0
  · refine ⟨refDecode c.fmt c.blk, fun d s hsame hpres hrst => ?_⟩
    have hblk : c.blk = d.blk := (hsame.2.2 hfmt).1 hop
    have hsteps : opSteps d = 2 := by
      rw [opSteps, ← hsame.1, ← hsame.2.1]
      exact if_pos ⟨hop, hfmt⟩
    obtain ⟨hstep, hstep'⟩ := step_step_of_dec hpres (hsame.1 ▸ hop) (hsame.2.1 ▸ hfmt) (input_rst_of_forall hrst)
    obtain ⟨hrsp, -, hbusy⟩ := State.decodeBlock_response (s.afterInput.acceptDec d.fmt d.blk).afterInput
    rw [hsteps, hsame.2.1, hblk]
    exact ⟨_, run_two hstep hstep', hrsp, hbusy⟩
  · obtain ⟨q, fmt, -, -, hdec⟩ := decode_cmd_of_enc hop hop3 hfmt
    obtain ⟨r, hr⟩ := exec_encInstr_response q fmt c.cand
    refine ⟨r, fun d s hsame hpres _ => ?_⟩
    obtain ⟨t, ht, hrsp, hbusy⟩ := hr s.afterInput
    have hsteps : opSteps d = 1 := by
      rw [opSteps, ← hsame.1]
      exact if_neg fun h => hop h.1
    rw [hsteps]
    exact ⟨t, run_one ((presents_of_sameOperands hsame hpres).trans (hdec ▸ ht)), hrsp, hbusy⟩

/-! ## Coherence -/

theorem statusOnly_valid {c : Status} (hc : c ≠ .ok) (op : BitVec 2) : (Response.statusOnly c).Valid op := by
  simp [Response.Valid, Response.statusOnly, hc]

theorem decoded_valid (pix : Tile) : (Response.decoded pix).Valid 0 := by
  simp [Response.Valid, Response.decoded]

theorem encoded_valid (q : Bool) (B : Block) (n : Nat) (e : Vector Nat 3) : (Response.encoded B n e).Valid (encOp q) := by
  cases q <;> simp [Response.Valid, Response.encoded, encOp]

/-- A busy state that holds a response carrying what its status allows. -/
theorem coherent_of_response {s : State} {r : Response} (hbusy : s.busy = true) (hrsp : s.rsp = some r)
    (hph : s.ph = .d7 ∨ s.ph = .e7 ∨ s.ph = .fault) (hstatus : r.status = s.status) (hvalid : r.Valid s.op)
    (hne : r.status ≠ .noCandidate) : s.Coherent where
  busy_iff := by
    simp only [hbusy, true_iff]
    rintro hidle
    simp [hidle] at hph
  rsp_iff := by simp [hrsp, hph]
  waiting := fun _ hnone => by simp [hrsp] at hnone
  response := fun r' hr' => by
    obtain rfl : r = r' := Option.some.inj (hrsp.symm.trans hr')
    exact ⟨hstatus, hvalid, hne⟩

theorem coherent_raise {s : State} (hbusy : s.busy = true) {c : Status} (hc : c ≠ .ok := by decide)
    (hc' : c ≠ .noCandidate := by decide) : (s.raise c).Coherent :=
  coherent_of_response hbusy rfl (.inr (.inr rfl)) rfl (statusOnly_valid hc _) hc'

/-- An interpreted block. -/
theorem coherent_decodeBlock {s : State} (hbusy : s.busy = true) (hop : s.op = 0) : s.decodeBlock.Coherent := by
  obtain ⟨h, -⟩ | ⟨m, h, -⟩ | ⟨k, h, -⟩ := s.decodeBlock_cases <;> rw [h]
  · exact coherent_raise hbusy
  · refine coherent_of_response ((s.decoded7_busy _ _).trans hbusy) (s.decoded7_rsp _ _) (.inl (s.decoded7_ph _ _))
      (s.decoded7_status _ _).symm ?_ nofun
    rw [s.decoded7_op, hop]
    exact decoded_valid _
  · refine coherent_of_response ((s.decoded6_busy _ _).trans hbusy) (s.decoded6_rsp _ _) (.inl (s.decoded6_ph _ _))
      (s.decoded6_status _ _).symm ?_ nofun
    rw [s.decoded6_op, hop]
    exact decoded_valid _

/-- What an `ENC*` answers. -/
theorem coherent_of_exec_encInstr {q : Bool} {fmt : Fin 3} {c : Candidate} {s t : State}
    (h : exec (encInstr q fmt c) s = .next t) : t.Coherent := by
  obtain ⟨-, hexec⟩ | ⟨-, -, hexec⟩ | ⟨-, -, -, hexec⟩ | ⟨-, -, hexec⟩ := exec_encInstr_cases q fmt c <;>
    obtain rfl := Host.Outcome.next.inj ((hexec s).symm.trans h)
  · exact coherent_raise rfl
  · exact coherent_of_response rfl rfl (.inr (.inl rfl)) rfl (encoded_valid q _ _ _) nofun
  · exact coherent_of_response rfl rfl (.inr (.inl rfl)) rfl (encoded_valid q _ _ _) nofun
  · exact coherent_raise rfl

theorem coherent_acceptDec (s : State) {fmt : BitVec 2} (B : Block) (hfmt : fmt ≠ 3) : (s.acceptDec fmt B).Coherent where
  busy_iff := by simp
  rsp_iff := by simp
  waiting := fun _ _ => ⟨rfl, rfl, hfmt⟩
  response := nofun

theorem coherent_of_exec_cmd {c : Cmd} {s t : State} (h : exec (decode (.cmd c)) s = .next t) : t.Coherent := by
  obtain ⟨-, hexec⟩ | ⟨-, hfmt, hexec⟩ | ⟨q, fmt, -, -, hdec⟩ := exec_decode_cmd_cases c s
  · obtain rfl := Host.Outcome.next.inj (hexec.symm.trans h)
    exact coherent_raise rfl
  · obtain rfl := Host.Outcome.next.inj (hexec.symm.trans h)
    exact coherent_acceptDec s c.blk hfmt
  · exact coherent_of_exec_encInstr (hdec ▸ h)

/-- Coherence says nothing of the inputs. -/
theorem State.Coherent.afterInput {s : State} (h : s.Coherent) : s.afterInput.Coherent :=
  ⟨h.busy_iff, h.rsp_iff, h.waiting, h.response⟩

theorem coherent_idle {s : State} (hbusy : s.busy = false) (hrsp : s.rsp = none) (hph : s.ph = .idle) : s.Coherent :=
  ⟨by simp [hbusy, hph], by simp [hrsp, hph], by simp [hbusy], by simp [hrsp]⟩

/-- Settles O57: a busy state without a response waits at `D0` with a `DEC` of a legal format, so a step of it interprets
the latched block and no step faults. -/
theorem stepKeepsCoherence : Obligations.StepKeepsCoherence := by
  intro s hs
  obtain ⟨-, h⟩ | ⟨-, -, -, h⟩ | ⟨-, -, -, h⟩ | ⟨c, -, -, -, -, h⟩ | ⟨-, -, -, -, h⟩ | ⟨i, -, hrsp, hbusy, -, hi, h⟩ |
    ⟨-, hrsp, hbusy, hwait, -⟩ := step_cases s
  · exact ⟨_, h, coherent_idle rfl rfl rfl⟩
  · exact ⟨_, h, coherent_idle rfl rfl rfl⟩
  · exact ⟨_, h, hs.afterInput⟩
  · obtain ⟨t, ht⟩ := exec_answers_next (decode (.cmd c)) s.afterInput
    exact ⟨t, h.trans ht, coherent_of_exec_cmd ht⟩
  · exact ⟨_, h, hs.afterInput⟩
  · obtain ⟨-, hop, -⟩ := hs.waiting hbusy hrsp
    exact ⟨_, h.trans (exec_decodeLatched (s := s.afterInput) hi), coherent_decodeBlock hbusy hop⟩
  · obtain ⟨hd0, -, hfmt⟩ := hs.waiting hbusy hrsp
    exact absurd hwait (not_or.mpr ⟨not_not.mpr hd0, hfmt⟩)

end Sys2Proof.Machine
end

section
/-! PROOFS. The ranges of unquantized endpoints, palette entries and errors (R173, R175, R185, R211): a BC7 value is a byte,
a BC6H value a finite half-float magnitude, so the error accumulators stay below their 40 bits. -/

-- Elaborated in order: the stack of each thread that waits for another counts against the check's memory limit.
set_option Elab.async false

namespace Sys2Proof.Machine

/-! ## BC7 endpoints and palettes -/

theorem bc7_prec_mem : ∀ m < 8, ∀ ch < (tables.bc7 m).nch, 4 ≤ (tables.bc7 m).prec ch ∧ (tables.bc7 m).prec ch ≤ 8 := by
  decide

/-- A field of `w` bits with its p-bit appended has one bit more where the mode has p-bits (R174). -/
theorem mergePb_mem {d : Desc7} {pb : Vector Nat 6} {e ch : Nat} {x : Int} (he : e < d.ne) (h0 : 0 ≤ x)
    (hx : x < 2 ^ d.epWidth e ch) (hpb : rd pb (d.pbOf e) 0 ≤ 1) :
    0 ≤ mergePb d pb e x ∧ mergePb d pb e x < 2 ^ d.prec ch := by
  rw [Desc7.epWidth, if_pos he] at hx
  rw [mergePb, Desc7.prec]
  split
  · rw [pow_succ]
    omega
  · exact ⟨h0, hx⟩

theorem unq7_mem {m ch : Nat} {v : Int} (hm : m < 8) (hch : ch < 4) (h0 : 0 ≤ v)
    (hv : v < 2 ^ (tables.bc7 m).prec ch) : 0 ≤ unq7 (tables.bc7 m) ch v ∧ unq7 (tables.bc7 m) ch v ≤ 255 := by
  rw [unq7]
  split
  · decide
  next hno =>
    have hnch : ch < (tables.bc7 m).nch := by
      rw [Desc7.nch]
      split <;> omega
    obtain ⟨hp4, hp8⟩ := bc7_prec_mem m hm ch hnch
    exact ⟨Int.natCast_nonneg _, mod_cast uq7_le hp4 hp8 ((Int.toNat_lt h0).mpr (by exact_mod_cast hv))⟩

theorem pal7_mem {E : Nat → Nat → Int} {r ch : Nat} (ip j : Nat)
    (h : ∀ e, e = 2 * r ∨ e = 2 * r + 1 → 0 ≤ E e ch ∧ E e ch ≤ 255) :
    0 ≤ pal7 tables E r ip j ch ∧ pal7 tables E r ip j ch ≤ 255 :=
  interp_mem (h _ (.inl rfl)) (h _ (.inr rfl)) (Int.natCast_nonneg _) (mod_cast weight_le ip j)

/-- The endpoints the encoder searches with are bytes (R280). -/
theorem refCandE7_mem {q : Bool} {c : Candidate} (hvalid : ValidBc7 tables q c) {e ch : Nat}
    (he : e < (tables.bc7 c.mode.toNat).ne) (hch : ch < 4) : 0 ≤ refCandE7 q c e ch ∧ refCandE7 q c e ch ≤ 255 := by
  obtain ⟨hm, -⟩ := validBc7_bounds hvalid
  obtain ⟨h0, hlt⟩ := fieldBc7_mem hvalid (e := e) hch
  obtain ⟨h0', hlt'⟩ := mergePb_mem (pb := tab 6 (pbitBc7 (tables.bc7 c.mode.toNat) q c)) he h0 hlt (by
    rw [rd_tab_eq]
    split
    · exact pbitBc7_le_one _ _ _ _
    · exact Nat.zero_le _)
  exact unq7_mem hm hch h0' hlt'

theorem refCandE7_mem_region {q : Bool} {c : Candidate} (hvalid : ValidBc7 tables q c) {i ch : Nat} (hi : i < 16)
    (hch : ch < 4) :
    let r := tables.region (tables.bc7 c.mode.toNat).P c.shape.toNat i
    ∀ e, e = 2 * r ∨ e = 2 * r + 1 → 0 ≤ refCandE7 q c e ch ∧ refCandE7 q c e ch ≤ 255 := by
  obtain ⟨-, hP, hs⟩ := validBc7_bounds hvalid
  have hr := region_lt (tables.bc7 c.mode.toNat).P c.shape.toNat i (by omega) hs hi
  intro r e he
  refine refCandE7_mem hvalid ?_ hch
  rw [Desc7.ne]
  omega

/-! ## Errors -/

theorem dist_le {p q : Nat → Int} {S : List Nat} {B : Nat} (h : ∀ ch ∈ S, (p ch - q ch).natAbs ≤ B) :
    dist p q S ≤ S.length * B ^ 2 := by
  refine (List.sum_le_card_nsmul _ (B ^ 2) fun x hx => ?_).trans_eq (by rw [List.length_map, smul_eq_mul])
  obtain ⟨ch, hch, rfl⟩ := List.mem_map.mp hx
  exact Nat.pow_le_pow_left (h ch hch) 2

theorem tileSum_le {e : Nat → Nat} {B : Nat} (h : ∀ i < 16, e i ≤ B) : tileSum e ≤ 16 * B := by
  refine (List.sum_le_card_nsmul _ B fun x hx => ?_).trans_eq (by rw [List.length_map, List.length_range, smul_eq_mul])
  obtain ⟨i, hi, rfl⟩ := List.mem_map.mp hx
  exact h i (List.mem_range.mp hi)

theorem chan7_mem (x : Lane) (ch : Nat) : 0 ≤ chan7 x ch ∧ chan7 x ch ≤ 255 := by
  have hlt := (x.extractLsb' (8 * ch) 8).isLt
  rw [chan7]
  omega

theorem rotate_chan7_mem (rot : Nat) (x : Lane) (ch : Nat) :
    0 ≤ rotate rot (chan7 x) ch ∧ rotate rot (chan7 x) ch ≤ 255 := by
  rw [rotate]
  split_ifs <;> exact chan7_mem x _

/-- The error of a search is that of an entry of its palette, and a byte differs from a byte by at most 255. -/
theorem refSearch7_snd_le {q : Bool} {c : Candidate} (hvalid : ValidBc7 tables q c) (ip : Nat) {S : List Nat}
    (hS : ∀ ch ∈ S, ch < 4) (hlen : S.length ≤ 4) {i : Nat} (hi : i < 16) : (refSearch7 q c ip S i).2 ≤ 4 * 255 ^ 2 := by
  rw [refSearch7, nearest_snd]
  refine (dist_le (B := 255) fun ch hch => ?_).trans (Nat.mul_le_mul_right _ hlen)
  obtain ⟨hp0, hp⟩ := rotate_chan7_mem c.rot.toNat (rd c.tile i 0) ch
  generalize (nearest _ _).1 = j
  obtain ⟨hq0, hq⟩ := pal7_mem ip j (refCandE7_mem_region hvalid hi (hS ch hch))
  omega

theorem refErr7_le {q : Bool} {c : Candidate} (hvalid : ValidBc7 tables q c) {i : Nat} (hi : i < 16) :
    refErr7 q c i ≤ 2 ^ 20 := by
  have h1 : (refFirst7 q c i).2 ≤ 4 * 255 ^ 2 := by
    refine refSearch7_snd_le hvalid _ ?_ ?_ hi <;> rw [refChannels1] <;> split_ifs <;> decide
  have h2 : (refSecond7 q c i).2 ≤ 4 * 255 ^ 2 := by
    rw [refSecond7]
    split
    · decide
    · refine refSearch7_snd_le hvalid _ ?_ ?_ hi <;> rw [refChannels2] <;> split_ifs <;> decide
  rw [refErr7]
  omega

/-! ## BC6H endpoints and palettes -/

/-- The range of an unquantized endpoint (R183, R185). -/
theorem uq6_mem {x : Int} {p : Nat} {sg : Bool} (hp : p ≤ 16) (h : fits x p sg = true) :
    (if sg then -32768 else 0) ≤ uq6 x p sg ∧ uq6 x p sg ≤ if sg then 32767 else 65535 := by
  cases sg with
  | false => exact uq6_unsigned_mem hp h
  | true =>
    obtain rfl | hlt := hp.eq_or_lt
    · exact uq6_signed_passthrough_mem h
    · obtain ⟨hlo, hhi⟩ := uq6_signed_mem x hlt
      simp only [if_true]
      omega

/-- The range of a palette entry over endpoints that fit (R184, R185). -/
theorem pal6_mem_of_fits {k : Fin 14} {sg : Bool} {E : Nat → Nat → Int} {r ch : Nat} (j : Nat)
    (h : ∀ e, e = 2 * r ∨ e = 2 * r + 1 → fits (E e ch) (tables.bc6h (k + 1)).EP sg = true) :
    (if sg then -31744 else 0) ≤ pal6 tables (tables.bc6h (k + 1)) sg E r j ch ∧
      pal6 tables (tables.bc6h (k + 1)) sg E r j ch ≤ 31743 := by
  obtain ⟨-, hEP, -⟩ := bc6h_endpoint_widths k
  obtain ⟨hlo, hhi⟩ := pal6_mem (fun e he => uq6_mem hEP (h e he)) j
  cases sg <;> exact ⟨hlo, hhi⟩

theorem fits_sixteen_of_mem {x : Int} {sg : Bool} (hlo : (if sg then -31744 else 0) ≤ x) (hhi : x ≤ 31743) :
    fits x 16 sg = true := by
  cases sg with
  | false =>
    rw [if_neg (by decide)] at hlo
    rw [fits_unsigned_iff]
    omega
  | true =>
    rw [if_pos rfl] at hlo
    rw [fits_signed_iff]
    omega

theorem fits_refQ6_region {q sg : Bool} {c : Candidate} (hvalid : ValidBc6h tables q sg c) {i ch : Nat} (hi : i < 16)
    (hch : ch < 3) :
    let r := tables.region (tables.bc6h c.mode.toNat).P c.shape.toNat i
    ∀ e, e = 2 * r ∨ e = 2 * r + 1 → fits (refQ6 q sg c e ch) (tables.bc6h c.mode.toNat).EP sg = true := by
  obtain ⟨hP, hs⟩ := validBc6h_bounds hvalid
  have hr := region_lt (tables.bc6h c.mode.toNat).P c.shape.toNat i (by omega) hs hi
  intro r e he
  refine fits_refQ6 hvalid ?_ hch
  rw [Desc6.ne]
  omega

theorem refSearch6_snd_le {q sg : Bool} {c : Candidate} (hvalid : ValidBc6h tables q sg c) {i : Nat} (hi : i < 16) :
    (refSearch6 q sg c i).2 ≤ 2 ^ 34 := by
  obtain ⟨k, hk⟩ := validBc6h_mode hvalid
  have hfits := fun ch (hch : ch < 3) => fits_refQ6_region hvalid hi hch
  obtain ⟨-, -, -, -, htile, -⟩ := hvalid
  have hlo : -31743 ≤ lo6 tables sg := by cases sg <;> decide
  rw [refSearch6, nearest_snd]
  refine (dist_le (B := 65536) fun ch hch => ?_).trans (by decide)
  have hch3 : ch < 3 := by fin_cases hch <;> decide
  obtain ⟨hp0, hp⟩ := htile i hi ch hch3
  have hf : (tables.f16max : Int) = 31743 := rfl
  rw [hk] at hfits ⊢
  generalize (nearest _ _).1 = j
  obtain ⟨hq0, hq⟩ := pal6_mem_of_fits j (hfits ch hch3)
  have hlo' : (-31744 : Int) ≤ if sg then -31744 else 0 := by cases sg <;> decide
  omega

end Sys2Proof.Machine
end

section
/-! PROOFS. Every register stays in the range of its width (R22, R27). -/

-- Elaborated in order: the stack of each thread that waits for another counts against the check's memory limit.
set_option Elab.async false

namespace Sys2Proof.Machine

/-! ## Updates that keep the ranges -/

theorem State.InRange.afterInput {s : State} (h : s.InRange) : s.afterInput.InRange :=
  ⟨h.cur, h.mode, h.shape, h.rot, h.idxm, h.ep, h.pb, h.ix1, h.ix2, h.err, h.errtot⟩

theorem State.InRange.takeResponse {s : State} (h : s.InRange) : s.takeResponse.InRange :=
  ⟨h.cur, h.mode, h.shape, h.rot, h.idxm, h.ep, h.pb, h.ix1, h.ix2, h.err, h.errtot⟩

theorem State.InRange.raise {s : State} (h : s.InRange) (c : Status) : (s.raise c).InRange :=
  ⟨h.cur, h.mode, h.shape, h.rot, h.idxm, h.ep, h.pb, h.ix1, h.ix2, h.err, h.errtot⟩

theorem inRange_resetPort (s : State) : s.resetPort.InRange :=
  let h := reset_inRange
  ⟨h.cur, h.mode, h.shape, h.rot, h.idxm, h.ep, h.pb, h.ix1, h.ix2, h.err, h.errtot⟩

theorem State.InRange.accept {s : State} (h : s.InRange) (op fmt : BitVec 2) : (s.accept op fmt).InRange where
  cur := Nat.zero_le _
  mode := h.mode
  shape := by simp
  rot := by simp
  idxm := by simp
  ep := fun e he c hc => by simp [epAt_grid _ he hc]
  pb := fun k hk => by simp [hk]
  ix1 := h.ix1
  ix2 := h.ix2
  err := fun r hr => by simp [hr]
  errtot := by simp

theorem State.InRange.acceptDec {s : State} (h : s.InRange) (fmt : BitVec 2) (B : Block) :
    (s.acceptDec fmt B).InRange :=
  let h := h.accept 0 fmt
  ⟨h.cur, h.mode, h.shape, h.rot, h.idxm, h.ep, h.pb, h.ix1, h.ix2, h.err, h.errtot⟩

theorem State.InRange.acceptEnc {s : State} (h : s.InRange) (op fmt : BitVec 2) (c : Candidate) :
    (s.acceptEnc op fmt c).InRange :=
  let h := h.accept op fmt
  ⟨h.cur, c.mode.isLt, h.shape, h.rot, h.idxm, h.ep, h.pb, h.ix1, h.ix2, h.err, h.errtot⟩

/-! ## Values of a mode's width -/

theorem bc7_width_bounds : ∀ m < 8,
    let d := tables.bc7 m
    2 ^ d.RB ≤ 4 ∧ 2 ^ d.IB ≤ 2 ∧ 2 ^ d.IP ≤ 16 ∧ 2 ^ d.IP2 ≤ 8 := by
  decide

theorem bc6h_IP_bound : ∀ k : Fin 14, 2 ^ (tables.bc6h (k + 1)).IP ≤ 16 := by decide

theorem idxWidth_le (P shape ip i : Nat) : tables.idxWidth P shape ip i ≤ ip := by
  rw [Tables.idxWidth]
  split <;> omega

theorem idx2Width_le (d : Desc7) (i : Nat) : d.idx2Width i ≤ d.IP2 := by
  rw [Desc7.idx2Width]
  split <;> omega

/-- A number that fits an endpoint's precision is in the range of the endpoint registers (R22). -/
theorem ep_mem_of_fits {x : Int} {n : Nat} {sg : Bool} (hn : n ≤ 16) (h : fits x n sg = true) :
    -32768 ≤ x ∧ x ≤ 65535 := by
  cases sg with
  | false =>
    obtain ⟨h0, hhi⟩ := (fits_unsigned_iff x n).mp h
    have hpow : (2 : Int) ^ n ≤ 2 ^ 16 := pow_le_pow_right₀ (by decide) hn
    omega
  | true =>
    obtain ⟨hlo, hhi⟩ := (fits_signed_iff x n).mp h
    have hpow : (2 : Int) ^ (n - 1) ≤ 2 ^ 15 := pow_le_pow_right₀ (by decide) (by omega)
    omega

theorem bc7_epWidth_le : ∀ m < 8, ∀ e < 6, ∀ ch < 4, (tables.bc7 m).epWidth e ch ≤ 8 := by decide

theorem ep_mem_of_byte {x : Int} {n : Nat} (hn : n ≤ 8) (h0 : 0 ≤ x) (h : x < 2 ^ n) : -32768 ≤ x ∧ x ≤ 65535 := by
  have hpow : (2 : Int) ^ n ≤ 2 ^ 8 := pow_le_pow_right₀ (by decide) hn
  omega

/-! ## Interpreted blocks -/

theorem State.InRange.decoded7 {s : State} (h : s.InRange) {m : Nat} (hm : m < 8) {f : Bc7Fields} (hf : f.WF m) :
    (s.decoded7 m f).InRange := by
  obtain ⟨hshape, hrot, hidxm, hep, hpb, hix1, hix2⟩ := hf
  obtain ⟨-, hPB, -⟩ := bc7_index_bounds m hm
  obtain ⟨hRB, hIB, hIP, hIP2⟩ := bc7_width_bounds m hm
  have hpb1 : ∀ k < 6, rd f.pb k 0 < 2 := fun k hk => (hpb k hk).trans_le (by split <;> decide)
  constructor <;> simp only [State.decoded7]
  case cur => exact le_rfl
  case mode => omega
  case shape => exact hshape.trans_le hPB
  case rot => exact hrot.trans_le hRB
  case idxm => exact hidxm.trans_le hIB
  case ep =>
    intro e he ch hch
    rw [epAt_endpointFile7 f s.ep he hch]
    split
    next hlt =>
      obtain ⟨h0, hlt'⟩ := mergePb_mem (pb := f.pb) (x := (cell f.ep e ch (0 : Nat) : Nat)) hlt.1 (Int.natCast_nonneg _)
        (mod_cast hep e he ch hch) (by
          by_cases hk : (tables.bc7 m).pbOf e < 6
          · exact Nat.le_of_lt_succ (hpb1 _ hk)
          · rw [rd_of_le _ _ _ (by omega)]
            exact Nat.zero_le _)
      exact ep_mem_of_byte (bc7_prec_mem m hm ch hlt.2).2 h0 hlt'
    next => exact h.ep e he ch hch
  case pb =>
    intro k hk
    rw [rd_pbitFile7 f s.pb hk]
    split
    · exact hpb1 k hk
    · exact h.pb k hk
  case ix1 =>
    exact fun i hi => (hix1 i hi).trans_le ((Nat.pow_le_pow_right (by decide) (idxWidth_le _ _ _ _)).trans hIP)
  case ix2 =>
    intro i hi
    split
    · exact (hix2 i hi).trans_le ((Nat.pow_le_pow_right (by decide) (idx2Width_le _ _)).trans hIP2)
    · exact h.ix2 i hi
  case err => exact h.err
  case errtot => exact h.errtot

theorem State.InRange.decoded6 {s : State} (h : s.InRange) (k : Fin 14) (B : Block) :
    (s.decoded6 (k + 1) (parse6 tables (k + 1) B)).InRange := by
  obtain ⟨hshape, -, hix⟩ := parse6_wf k B
  obtain ⟨-, -, hbits, -⟩ := bc6h_bounds k
  obtain ⟨-, hEP, -⟩ := bc6h_endpoint_widths k
  constructor <;> simp only [State.decoded6]
  case cur => exact le_rfl
  case mode => omega
  case shape => exact hshape.trans_le hbits
  case rot => exact h.rot
  case idxm => exact h.idxm
  case ep =>
    intro e he ch hch
    rw [epAt_endpointFile6_eq _ _ he hch]
    split
    next hlt => exact ep_mem_of_fits hEP (fits_refEndpoint6 k _ B hlt.1 hlt.2)
    next => decide
  case pb => exact h.pb
  case ix1 =>
    exact fun i hi =>
      (hix i hi).trans_le ((Nat.pow_le_pow_right (by decide) (idxWidth_le _ _ _ _)).trans (bc6h_IP_bound k))
  case ix2 => exact h.ix2
  case err => exact h.err
  case errtot => exact h.errtot

theorem State.InRange.decodeBlock {s : State} (h : s.InRange) : s.decodeBlock.InRange := by
  obtain ⟨hd, -⟩ | ⟨m, hd, -⟩ | ⟨k, hd, -⟩ := s.decodeBlock_cases <;> rw [hd]
  · exact h.raise _
  · exact h.decoded7 m.isLt (parse7_wf m s.blk)
  · exact h.decoded6 k s.blk

/-! ## Packed candidates -/

/-- 16 pixels of at most `2 ^ 34` each fit the 40-bit accumulators (R217). -/
theorem errors_lt {P shape : Nat} (hP : P < 3) (hs : shape < 64) {e : Nat → Nat} (he : ∀ i < 16, e i ≤ 2 ^ 34) :
    tileSum e < 2 ^ 40 ∧ ∀ r < 3, rd (tab 3 fun r => regionSum P shape r e) r 0 < 2 ^ 40 := by
  have htotal := tileSum_le he
  refine ⟨by omega, fun r hr => ?_⟩
  have hregion := regionSum_le_tileSum hP hs e hr
  rw [rd_tab _ _ _ hr]
  omega

theorem State.InRange.encoded7 {s : State} (h : s.InRange) {q : Bool} {c : Candidate} (hvalid : ValidBc7 tables q c) :
    (s.encoded7 q c).InRange := by
  obtain ⟨hm, hP, hs⟩ := validBc7_bounds hvalid
  obtain ⟨-, -, hIP, hIP2⟩ := bc7_width_bounds _ hm
  obtain ⟨-, -, -, -, -, hix1, hix2⟩ := refFields7_wf hvalid
  obtain ⟨htotal, hregions⟩ := errors_lt hP hs fun i hi => (refErr7_le hvalid hi).trans (by decide)
  constructor <;> simp only [State.encoded7]
  case cur => exact le_rfl
  case mode => exact c.mode.isLt
  case shape => exact hs
  case rot => exact c.rot.isLt
  case idxm => exact c.idxm.isLt
  case ep =>
    intro e he ch hch
    obtain ⟨h0, hlt⟩ := refEp7_mem hvalid (e := e) hch
    rw [epAt_grid _ he hch]
    exact ep_mem_of_byte (bc7_epWidth_le _ hm e he ch hch) h0 hlt
  case pb => exact fun k _ => Nat.lt_succ_of_le (rd_refFields7_pb_le_one q c k)
  case ix1 =>
    exact fun i hi => (hix1 i hi).trans_le ((Nat.pow_le_pow_right (by decide) (idxWidth_le _ _ _ _)).trans hIP)
  case ix2 =>
    intro i hi
    split
    · exact (hix2 i hi).trans_le ((Nat.pow_le_pow_right (by decide) (idx2Width_le _ _)).trans hIP2)
    · exact h.ix2 i hi
  case err => exact hregions
  case errtot => exact htotal

/-- What the fixup of a BC6H encode leaves. -/
theorem State.InRange.fixed6 {s : State} (h : s.InRange) {q : Bool} {c : Candidate}
    (hvalid : ValidBc6h tables q (sgOf s.fmt) c) : (fixed6 q c s).InRange := by
  obtain ⟨hP, hs⟩ := validBc6h_bounds hvalid
  obtain ⟨k, hk⟩ := validBc6h_mode hvalid
  obtain ⟨-, hEP, -⟩ := bc6h_endpoint_widths k
  obtain ⟨-, -, hix⟩ := refFields6_wf hvalid
  obtain ⟨htotal, hregions⟩ := errors_lt (P := (tables.bc6h c.mode.toNat).P) (by omega) hs
    fun i hi => refSearch6_snd_le hvalid hi
  constructor <;> simp only [Machine.fixed6]
  case cur => exact h.cur
  case mode => exact c.mode.isLt
  case shape => exact hs
  case rot => exact c.rot.isLt
  case idxm => exact c.idxm.isLt
  case ep =>
    intro e he ch hch
    rw [epAt_grid _ he hch]
    by_cases hlt : e < (tables.bc6h c.mode.toNat).ne ∧ ch < 3
    · exact ep_mem_of_fits (hk ▸ hEP) (fits_refQ6 hvalid ((endOf_lt_ne6_iff _ _ _).mpr hlt.1) hlt.2)
    · rw [refQ6, endpointBc6h, if_neg fun h' => hlt ⟨(endOf_lt_ne6_iff _ _ _).mp h'.1, h'.2⟩]
      decide
  case pb => exact h.pb
  case ix1 =>
    have hIP := bc6h_IP_bound k
    rw [← hk] at hIP
    exact fun i hi => (hix i hi).trans_le ((Nat.pow_le_pow_right (by decide) (idxWidth_le _ _ _ _)).trans hIP)
  case ix2 => exact h.ix2
  case err => exact hregions
  case errtot => exact htotal

theorem State.InRange.encoded6 {s : State} (h : s.InRange) {q : Bool} {c : Candidate}
    (hvalid : ValidBc6h tables q (sgOf s.fmt) c) : (s.encoded6 q c).InRange :=
  let h := h.fixed6 hvalid
  ⟨le_rfl, h.mode, h.shape, h.rot, h.idxm, h.ep, h.pb, h.ix1, h.ix2, h.err, h.errtot⟩

/-! ## Steps -/

theorem inRange_of_exec_encInstr {q : Bool} {fmt : Fin 3} {c : Candidate} {s t : State} (hs : s.InRange)
    (h : exec (encInstr q fmt c) s = .next t) : t.InRange := by
  have hacc := hs.acceptEnc (encOp q) (BitVec.ofNat 2 fmt) c
  have hsg : sgOf (s.acceptEnc (encOp q) (BitVec.ofNat 2 fmt) c).fmt = (fmt == 2) := sgOf_fmt fmt
  obtain ⟨-, hexec⟩ | ⟨-, hvalid, hexec⟩ | ⟨-, hvalid, -, hexec⟩ | ⟨-, hvalid, hexec⟩ := exec_encInstr_cases q fmt c <;>
    obtain rfl := Host.Outcome.next.inj ((hexec s).symm.trans h)
  · exact hacc.raise _
  · exact (hs.acceptEnc (encOp q) 0 c).encoded7 hvalid
  · exact hacc.encoded6 (hsg ▸ hvalid)
  · have h6 := hacc.fixed6 (hsg ▸ hvalid)
    exact ⟨h6.cur, h6.mode, h6.shape, h6.rot, h6.idxm, h6.ep, h6.pb, h6.ix1, h6.ix2, h6.err, h6.errtot⟩

theorem inRange_of_exec_cmd {c : Cmd} {s t : State} (hs : s.InRange) (h : exec (decode (.cmd c)) s = .next t) :
    t.InRange := by
  obtain ⟨-, hexec⟩ | ⟨-, -, hexec⟩ | ⟨q, fmt, -, -, hdec⟩ := exec_decode_cmd_cases c s
  · obtain rfl := Host.Outcome.next.inj (hexec.symm.trans h)
    exact (hs.accept c.op c.fmt).raise .badCommand
  · obtain rfl := Host.Outcome.next.inj (hexec.symm.trans h)
    exact hs.acceptDec c.fmt c.blk
  · exact inRange_of_exec_encInstr hs (hdec ▸ h)

/-- Settles O58: fields read from a block are as wide as the mode says, quantized endpoints fit their precision, and the
errors of 16 pixels fit 40 bits. -/
theorem stepKeepsRegistersInRange : Obligations.StepKeepsRegistersInRange := by
  intro s t hs hstep
  obtain ⟨-, h⟩ | ⟨-, -, -, h⟩ | ⟨-, -, -, h⟩ | ⟨c, -, -, -, -, h⟩ | ⟨-, -, -, -, h⟩ | ⟨i, -, -, -, -, hi, h⟩ |
    ⟨-, -, -, -, h⟩ := step_cases s
  · obtain rfl := Host.Outcome.next.inj (h.symm.trans hstep)
    exact inRange_resetPort _
  · obtain rfl := Host.Outcome.next.inj (h.symm.trans hstep)
    exact hs.afterInput.takeResponse
  · obtain rfl := Host.Outcome.next.inj (h.symm.trans hstep)
    exact hs.afterInput
  · exact inRange_of_exec_cmd hs.afterInput (h.symm.trans hstep)
  · obtain rfl := Host.Outcome.next.inj (h.symm.trans hstep)
    exact hs.afterInput
  · have hexec := exec_decodeLatched (s := s.afterInput) hi
    obtain rfl := Host.Outcome.next.inj ((h.trans hexec).symm.trans hstep)
    exact hs.afterInput.decodeBlock
  · rw [h] at hstep
    exact absurd hstep nofun

end Sys2Proof.Machine
end

section
/-! PROOFS. The round trip of a BC7 `ENC*` (R288): the block decodes to the packed fields, and every decoded pixel is the
palette entry the search chose, because the fixup swaps endpoints and mirrors indices together. -/

-- Elaborated in order: the stack of each thread that waits for another counts against the check's memory limit.
set_option Elab.async false

namespace Sys2Proof.Machine

/-! ## Distances -/

theorem dist_comm (p q : Nat → Int) (S : List Nat) : dist p q S = dist q p S := by
  have hterm (ch : Nat) : (p ch - q ch).natAbs ^ 2 = (q ch - p ch).natAbs ^ 2 := by
    rw [← Int.natAbs_neg, neg_sub]
  simp only [dist, hterm]

/-- A rotation exchanges two of the four channels, so it may move to the other sample. -/
theorem dist_rotate (rot : Nat) (p q : Nat → Int) :
    dist (rotate rot p) q [0, 1, 2, 3] = dist p (rotate rot q) [0, 1, 2, 3] := by
  have hrot := rotChan_lt rot
  simp only [dist, rotate]
  generalize rotChan rot = k at hrot
  interval_cases k <;> simp <;> omega

theorem dist_append (p q : Nat → Int) (S S' : List Nat) : dist p q (S ++ S') = dist p q S + dist p q S' := by
  simp only [dist, List.map_append, List.sum_append]

/-! ## Swapped endpoints and mirrored indices -/

theorem pal7_congr_region {E F : Nat → Nat → Int} {r ch : Nat} (ip j : Nat)
    (h : ∀ e, e / 2 = r → E e ch = F e ch) : pal7 tables E r ip j ch = pal7 tables F r ip j ch := by
  rw [pal7, pal7, h (2 * r) (by omega), h (2 * r + 1) (by omega)]

theorem pal7_endOf_mirrored (b : Bool) (E : Nat → Nat → Int) (r ch : Nat) {ip j : Nat} (hip : ip < 5) (hip' : 2 ≤ ip)
    (hj : j < 2 ^ ip) : pal7 tables (fun e => E (endOf b e)) r ip (mirrored b ip j) ch = pal7 tables E r ip j ch := by
  cases b with
  | false => rfl
  | true => exact pal7_swap E r ch hip hip' hj

/-! ## The endpoints of the packed fields -/

/-- The swap that the fixup applies to a channel's endpoints of region `r` (R218, R219). -/
def swapOf (q : Bool) (c : Candidate) (ch r : Nat) : Bool := if ch ∈ refChannels1 c then refSwap1 q c r else refSwap2 q c

/-- A mode with p-bits has one index array, and an endpoint's p-bit is its own or its region's. -/
theorem bc7_pbits : ∀ m < 8, 0 < (tables.bc7 m).NP → (tables.bc7 m).IP2 = 0 ∧
    ((tables.bc7 m).NP = (tables.bc7 m).ne ∨ ∀ e < 6, (tables.bc7 m).pbOf e = e / 2) := by
  decide

theorem mem_refChannels1_of_single {c : Candidate} (h : (tables.bc7 c.mode.toNat).IP2 = 0) {ch : Nat} (hch : ch < 4) :
    ch ∈ refChannels1 c := by
  rw [refChannels1, if_pos h]
  interval_cases ch <;> decide

/-- The p-bit travels with its endpoint where it is the endpoint's own, and both endpoints of a region share it else. -/
theorem mergePb_refFields7 {q : Bool} {c : Candidate} (hm : c.mode.toNat < 8) {e ch : Nat}
    (he : e < (tables.bc7 c.mode.toNat).ne) (hch : ch < 4) (x : Int) :
    mergePb (tables.bc7 c.mode.toNat) (refFields7 q c).pb e x =
      mergePb (tables.bc7 c.mode.toNat) (tab 6 (pbitBc7 (tables.bc7 c.mode.toNat) q c))
        (endOf (swapOf q c ch (e / 2)) e) x := by
  obtain ⟨hne, -, -⟩ := bc7_array_bounds _ hm
  rw [mergePb, mergePb]
  split
  next hNP =>
    obtain ⟨hsingle, hpb⟩ := bc7_pbits _ hm hNP
    have he6 : e < 6 := by omega
    have hend : endOf (swapOf q c ch (e / 2)) e < 6 := endOf_lt (n := 3) _ he6
    rw [swapOf, if_pos (mem_refChannels1_of_single hsingle hch)] at hend ⊢
    by_cases hown : (tables.bc7 c.mode.toNat).NP = (tables.bc7 c.mode.toNat).ne
    · rw [pbOf_own hown, pbOf_own hown, rd_refFields7_pb q c he6, if_pos hown, rd_tab _ _ _ hend]
    · have hregion := hpb.resolve_left hown
      rw [hregion e he6, hregion _ hend, endOf_div_two, rd_refFields7_pb q c (by omega), if_neg hown,
        rd_tab _ _ _ (by omega)]
  next => rfl

theorem refEndpoint7_refFields7 {q : Bool} {c : Candidate} (hvalid : ValidBc7 tables q c) {e ch : Nat}
    (he : e < (tables.bc7 c.mode.toNat).ne) (hch : ch < 4) :
    refEndpoint7 c.mode.toNat (refFields7 q c) e ch = refCandE7 q c (endOf (swapOf q c ch (e / 2)) e) ch := by
  obtain ⟨hm, -⟩ := validBc7_bounds hvalid
  obtain ⟨hne, -, -⟩ := bc7_array_bounds _ hm
  by_cases hnch : ch < (tables.bc7 c.mode.toNat).nch
  · have hcell : ((cell (refFields7 q c).ep e ch 0 : Nat) : Int) = refEp7 q c e ch := by
      rw [refFields7, cell_grid _ _ _ _ (by omega) hch, Int.toNat_of_nonneg (refEp7_mem hvalid hch).1]
    rw [← unq7_mergePb hm _ hnch, hcell, mergePb_refFields7 hm he hch]
    rfl
  · have hAB : (tables.bc7 c.mode.toNat).AB = 0 := by
      rw [Desc7.nch] at hnch
      split at hnch <;> omega
    obtain rfl : ch = 3 := by
      rw [Desc7.nch] at hnch
      split at hnch <;> omega
    simp only [refEndpoint7_no_alpha _ hAB, refCandE7, unq7, hAB, and_self, if_true]

/-! ## The pixels of the packed fields -/

theorem bc7_IP_mem : ∀ m < 8, (2 ≤ (tables.bc7 m).IP ∧ (tables.bc7 m).IP < 5) ∧
    (0 < (tables.bc7 m).IP2 → 2 ≤ (tables.bc7 m).IP2 ∧ (tables.bc7 m).IP2 < 5) := by
  decide

section
variable {q : Bool} {c : Candidate} (hvalid : ValidBc7 tables q c) {i ch : Nat} (hi : i < 16) (hch : ch < 4)
include hvalid hi hch

theorem pal7_refFields7 {ip j : Nat} (hip : 2 ≤ ip ∧ ip < 5) (hj : j < 2 ^ ip) :
    let r := tables.region (tables.bc7 c.mode.toNat).P c.shape.toNat i
    pal7 tables (refEndpoint7 c.mode.toNat (refFields7 q c)) r ip (mirrored (swapOf q c ch r) ip j) ch =
      pal7 tables (refCandE7 q c) r ip j ch := by
  intro r
  obtain ⟨-, hP, hs⟩ := validBc7_bounds hvalid
  have hr : r ≤ (tables.bc7 c.mode.toNat).P := region_lt _ c.shape.toNat i (by omega) hs hi
  have hend : ∀ e, e / 2 = r → refEndpoint7 c.mode.toNat (refFields7 q c) e ch =
      refCandE7 q c (endOf (swapOf q c ch r) e) ch := fun e he => by
    rw [refEndpoint7_refFields7 hvalid (by rw [Desc7.ne]; omega) hch, he]
  rw [pal7_congr_region ip _ hend]
  exact pal7_endOf_mirrored _ (refCandE7 q c) r ch hip.2 hip.1 hj

theorem refChannel7_of_mem (hmem : ch ∈ refChannels1 c) :
    refChannel7 c.mode.toNat (refFields7 q c) i ch = pal7 tables (refCandE7 q c)
      (tables.region (tables.bc7 c.mode.toNat).P c.shape.toNat i) (tables.bc7 c.mode.toNat).IP
      (refFirst7 q c i).1 ch := by
  obtain ⟨hm, -⟩ := validBc7_bounds hvalid
  have hfirst : ¬ (0 < (tables.bc7 c.mode.toNat).IP2 ∧ (ch < 3 ↔ c.idxm.toNat = 1)) := fun h =>
    (mem_refChannels1_of_dual h.1 hch).mp hmem h.2
  have hpal := pal7_refFields7 hvalid hi hch (bc7_IP_mem _ hm).1 (refFirst7_fst_lt q c i)
  simp only [swapOf, if_pos hmem] at hpal
  rw [refChannel7_eq_pal7, rd_refFields7_ix1 q c hi]
  exact (if_neg hfirst).trans hpal

theorem refChannel7_of_not_mem (hmem : ch ∉ refChannels1 c) :
    refChannel7 c.mode.toNat (refFields7 q c) i ch = pal7 tables (refCandE7 q c)
      (tables.region (tables.bc7 c.mode.toNat).P c.shape.toNat i) (tables.bc7 c.mode.toNat).IP2
      (refSecond7 q c i).1 ch := by
  obtain ⟨hm, -⟩ := validBc7_bounds hvalid
  have hdual : 0 < (tables.bc7 c.mode.toNat).IP2 :=
    Nat.pos_of_ne_zero fun h => hmem (mem_refChannels1_of_single h hch)
  have hsecond : ch < 3 ↔ c.idxm.toNat = 1 := not_not.mp (mt (mem_refChannels1_of_dual hdual hch).mpr hmem)
  have hpal := pal7_refFields7 hvalid hi hch ((bc7_IP_mem _ hm).2 hdual) (refSecond7_fst_lt q c i)
  simp only [swapOf, if_neg hmem] at hpal
  rw [refChannel7_eq_pal7, rd_refFields7_ix2 q c hi, if_neg hdual.ne']
  exact (if_pos ⟨hdual, hsecond⟩).trans hpal

theorem refChannel7_mem : 0 ≤ refChannel7 c.mode.toNat (refFields7 q c) i ch ∧
    refChannel7 c.mode.toNat (refFields7 q c) i ch ≤ 255 := by
  by_cases hmem : ch ∈ refChannels1 c
  · rw [refChannel7_of_mem hvalid hi hch hmem]
    exact pal7_mem _ _ (refCandE7_mem_region hvalid hi hch)
  · rw [refChannel7_of_not_mem hvalid hi hch hmem]
    exact pal7_mem _ _ (refCandE7_mem_region hvalid hi hch)

end

section
variable {q : Bool} {c : Candidate} (hvalid : ValidBc7 tables q c) {i : Nat} (hi : i < 16)
include hvalid hi

theorem chan7_refTile7 {ch : Nat} (hch : ch < 4) :
    chan7 (rd (refTile7 c.mode.toNat (refFields7 q c)) i 0) ch =
      rotate c.rot.toNat (refChannel7 c.mode.toNat (refFields7 q c) i) ch := by
  have hmem : 0 ≤ rotate c.rot.toNat (refChannel7 c.mode.toNat (refFields7 q c) i) ch ∧
      rotate c.rot.toNat (refChannel7 c.mode.toNat (refFields7 q c) i) ch ≤ 255 := by
    rw [rotate]
    split_ifs
    · exact refChannel7_mem hvalid hi (rotChan_lt _)
    · exact refChannel7_mem hvalid hi (by decide)
    · exact refChannel7_mem hvalid hi hch
  have hrot : (refFields7 q c).rot = c.rot.toNat := rfl
  rw [refTile7, rd_tab _ _ _ hi, chan7_pack7 _ hch, hrot]
  exact Int.emod_eq_of_lt hmem.1 (by omega)

/-- The error over the channels of array 1 is that of the first search. -/
theorem dist_refChannels1 :
    dist (rotate c.rot.toNat (chan7 (rd c.tile i 0))) (refChannel7 c.mode.toNat (refFields7 q c) i) (refChannels1 c) =
      (refFirst7 q c i).2 := by
  have hlt : ∀ ch ∈ refChannels1 c, ch < 4 := by
    rw [refChannels1]
    split_ifs <;> decide
  rw [dist_congr _ _ _ _ _ fun ch hch => ⟨rfl, refChannel7_of_mem hvalid hi (hlt ch hch) hch⟩, refFirst7, refSearch7,
    nearest_snd]

/-- The error over the other channels is that of the second search. -/
theorem dist_refChannels2 (hdual : 0 < (tables.bc7 c.mode.toNat).IP2) :
    dist (rotate c.rot.toNat (chan7 (rd c.tile i 0))) (refChannel7 c.mode.toNat (refFields7 q c) i) (refChannels2 c) =
      (refSecond7 q c i).2 := by
  have hlt : ∀ ch ∈ refChannels2 c, ch < 4 ∧ ch ∉ refChannels1 c := by
    rw [refChannels1, refChannels2, if_neg hdual.ne']
    split_ifs <;> decide
  rw [dist_congr _ _ _ _ _ fun ch hch => ⟨rfl, refChannel7_of_not_mem hvalid hi (hlt ch hch).1 (hlt ch hch).2⟩,
    refSecond7, if_neg hdual.ne', refSearch7, nearest_snd]

/-- Each decoded pixel differs from the tile's by the error the search found (R288 (b), (c)). -/
theorem pixelError7_refTile7 :
    pixelError7 (refTile7 c.mode.toNat (refFields7 q c)) c.tile i = refErr7 q c i := by
  have hpixel : pixelError7 (refTile7 c.mode.toNat (refFields7 q c)) c.tile i =
      dist (rotate c.rot.toNat (chan7 (rd c.tile i 0))) (refChannel7 c.mode.toNat (refFields7 q c) i) [0, 1, 2, 3] := by
    rw [pixelError7, dist_congr _ _ _ _ _ fun ch hch => ⟨chan7_refTile7 hvalid hi (by fin_cases hch <;> decide), rfl⟩,
      dist_rotate, dist_comm]
  rw [hpixel, refErr7, ← dist_refChannels1 hvalid hi]
  obtain hsingle | hdual := Nat.eq_zero_or_pos (tables.bc7 c.mode.toNat).IP2
  · rw [refSecond7, if_pos hsingle, refChannels1, if_pos hsingle, Nat.add_zero]
  · rw [← dist_refChannels2 hvalid hi hdual, refChannels1, refChannels2, if_neg hdual.ne']
    split
    · exact (dist_append _ _ [0, 1, 2] [3]).trans (Nat.add_comm _ _)
    · exact dist_append _ _ [0, 1, 2] [3]

end

/-! ## The round trip -/

theorem encoded7_of_exec {q : Bool} {c : Candidate} {s t : State} (h : exec (encInstr q 0 c) s = .next t)
    (hstatus : t.status = .ok) : ValidBc7 tables q c ∧ t = (s.acceptEnc (encOp q) 0 c).encoded7 q c := by
  obtain ⟨-, hexec⟩ | ⟨-, hvalid, hexec⟩ | ⟨hfmt, -⟩ | ⟨hfmt, -⟩ := exec_encInstr_cases q 0 c
  · obtain rfl := Host.Outcome.next.inj ((hexec s).symm.trans h)
    simp at hstatus
  · exact ⟨hvalid, (Host.Outcome.next.inj ((hexec s).symm.trans h)).symm⟩
  · exact absurd rfl hfmt
  · exact absurd rfl hfmt

/-- Settles O44. -/
theorem bc7RoundTripLaw : Obligations.Bc7RoundTripLaw := by
  intro q c s t h hstatus
  obtain ⟨hvalid, rfl⟩ := encoded7_of_exec h hstatus
  obtain ⟨hm, -⟩ := validBc7_bounds hvalid
  have hwf := refFields7_wf hvalid
  have hk : (Fin.ofNat 8 c.mode.toNat).val = c.mode.toNat := Nat.mod_eq_of_lt hm
  have hblk : encode (.bc7 (Fin.ofNat 8 c.mode.toNat) (refFields7 q c)) =
      .bc7 (encode7 c.mode.toNat (refFields7 q c)) := by
    rw [encode_bc7, hk]
  have hdec : decode (.bc7 (encode7 c.mode.toNat (refFields7 q c))) =
      .bc7 (Fin.ofNat 8 c.mode.toNat) (refFields7 q c) := by
    rw [← hblk]
    exact bc7DecodeOfEncode _ _ (by rw [wf_bc7, hk]; exact hwf)
  have herror : ∀ i < 16, pixelError7 (refTile7 c.mode.toNat (refFields7 q c)) c.tile i = refErr7 q c i :=
    fun i hi => pixelError7_refTile7 hvalid hi
  simp only [State.encoded7]
  refine ⟨hdec, fun s' => ⟨{ s' with blk := encode7 c.mode.toNat (refFields7 q c) }.decoded7 c.mode.toNat
    (refFields7 q c), ?_, ?_⟩⟩
  · rw [hdec, exec_bc7_eq, hk, parse7_encode7 hm hwf]
  · simp only [State.decoded7]
    refine ⟨trivial, trivial, rfl, rfl, rfl, trivial, tileSum_congr herror, fun r hr => ?_⟩
    rw [rd_tab _ _ _ hr]
    exact regionSum_congr herror

end Sys2Proof.Machine
end

section
/-! PROOFS. The round trip of a BC6H `ENC*` (R288): what fits its stored width comes back from it (R187, R189, R190), so the
block decodes to the packed endpoints and every decoded pixel is the palette entry the search chose. -/

-- Elaborated in order: the stack of each thread that waits for another counts against the check's memory limit.
set_option Elab.async false

namespace Sys2Proof.Machine

/-! ## The endpoints of the packed fields -/

/-- A number that fits is the extension of its low bits. -/
theorem extend_emod_of_fits {x : Int} {n : Nat} {sgn : Bool} (hn : 1 ≤ n) (h : fits x n sgn = true) :
    (if sgn then sext (x % 2 ^ n) n else x % 2 ^ n) = x := by
  cases sgn with
  | true => exact sext_emod_of_fits hn h
  | false =>
    obtain ⟨h0, hlt⟩ := (fits_unsigned_iff x n).mp h
    exact Int.emod_eq_of_lt h0 (by omega)

/-- The endpoints after the fixup, before the transform (R218). -/
def swapped6 (q sg : Bool) (c : Candidate) (e ch : Nat) : Int := refQ6 q sg c (endOf (refSwap6 q sg c (e / 2)) e) ch

theorem refStored6_eq (q sg : Bool) (c : Candidate) :
    refStored6 q sg c = stored6 (tables.bc6h c.mode.toNat) (swapped6 q sg c) := rfl

section
variable {q sg : Bool} {c : Candidate} (hvalid : ValidBc6h tables q sg c) (hfits : FitsBc6h q sg c) {e ch : Nat}
  (he : e < (tables.bc6h c.mode.toNat).ne) (hch : ch < 3)
include hvalid hfits he hch

/-- Sign extension gives back the stored endpoint or delta (R254). -/
theorem extendField_refFields6 :
    extendField (tables.bc6h c.mode.toNat) sg e ch (cell (refFields6 q sg c).ep e ch (0 : Nat) : Nat) =
      refStored6 q sg c e ch := by
  obtain ⟨k, hk⟩ := validBc6h_mode hvalid
  obtain ⟨hEP, hdW⟩ := bc6h_width_pos c.mode.toNat (by omega) (by omega)
  have hne := bc6h_ne_le k
  rw [← hk] at hne
  have hfit := hfits
  simp only [FitsBc6h, fits6, List.all_eq_true, List.mem_range] at hfit
  have hfit := hfit e he ch hch
  rw [cell_refFields6_ep q sg c (by omega) hch, Int.toNat_of_nonneg (Int.emod_nonneg _ (by positivity)), extendField,
    Desc6.epWidth]
  by_cases h0 : e = 0
  · subst h0
    rw [if_pos rfl] at hfit ⊢
    rw [if_pos rfl]
    exact extend_emod_of_fits hEP hfit
  · rw [if_neg h0] at hfit ⊢
    rw [if_neg h0, if_pos he]
    exact extend_emod_of_fits (hdW ch hch) hfit

end

section
variable {q sg : Bool} {c : Candidate} (hvalid : ValidBc6h tables q sg c) (hfits : FitsBc6h q sg c)
include hvalid hfits

/-- The inverse transform gives back the endpoints that were packed (R189, R255). -/
theorem refEndpoint6_refFields6 {e ch : Nat} (he : e < (tables.bc6h c.mode.toNat).ne) (hch : ch < 3) :
    refEndpoint6 c.mode.toNat sg (refFields6 q sg c) e ch = swapped6 q sg c e ch := by
  obtain ⟨k, hk⟩ := validBc6h_mode hvalid
  obtain ⟨hEP, -⟩ := bc6h_width_pos c.mode.toNat (by omega) (by omega)
  have hfit : fits (swapped6 q sg c e ch) (tables.bc6h c.mode.toNat).EP sg = true :=
    fits_refQ6 hvalid ((endOf_lt_ne6_iff _ _ _).mpr he) hch
  have h0 : 0 < (tables.bc6h c.mode.toNat).ne := by omega
  simp only [refEndpoint6_eq, extendField_refFields6 hvalid hfits he hch, extendField_refFields6 hvalid hfits h0 hch,
    refStored6_eq, stored6, ne_eq, not_true_eq_false, and_false, if_false]
  split
  · exact invTransform_sub hEP hfit
  · rfl

end

/-! ## The pixels of the packed fields -/

theorem bc6h_IP_mem : ∀ k : Fin 14, (tables.bc6h (k + 1)).IP < 5 ∧ 2 ≤ (tables.bc6h (k + 1)).IP := by decide

theorem pal6_congr_region {d : Desc6} {sg : Bool} {E F : Nat → Nat → Int} {r ch : Nat} (j : Nat)
    (h : ∀ e, e / 2 = r → E e ch = F e ch) : pal6 tables d sg E r j ch = pal6 tables d sg F r j ch := by
  rw [pal6, pal6, h (2 * r) (by omega), h (2 * r + 1) (by omega)]

theorem pal6_endOf_mirrored (b : Bool) {d : Desc6} (sg : Bool) (E : Nat → Nat → Int) (r ch : Nat) {j : Nat}
    (hip : d.IP < 5) (hip' : 2 ≤ d.IP) (hj : j < 2 ^ d.IP) :
    pal6 tables d sg (fun e => E (endOf b e)) r (mirrored b d.IP j) ch = pal6 tables d sg E r j ch := by
  cases b with
  | false => rfl
  | true => exact pal6_swap sg E r ch hip hip' hj

section
variable {q sg : Bool} {c : Candidate} (hvalid : ValidBc6h tables q sg c) (hfits : FitsBc6h q sg c) {i : Nat}
  (hi : i < 16)
include hvalid hfits hi

theorem pal6_refFields6 {ch : Nat} (hch : ch < 3) :
    pal6 tables (tables.bc6h c.mode.toNat) sg (refEndpoint6 c.mode.toNat sg (refFields6 q sg c))
        (tables.region (tables.bc6h c.mode.toNat).P c.shape.toNat i) (rd (refFields6 q sg c).ix i 0) ch =
      pal6 tables (tables.bc6h c.mode.toNat) sg (refQ6 q sg c)
        (tables.region (tables.bc6h c.mode.toNat).P c.shape.toNat i) (refSearch6 q sg c i).1 ch := by
  obtain ⟨k, hk⟩ := validBc6h_mode hvalid
  obtain ⟨hip, hip'⟩ := bc6h_IP_mem k
  rw [← hk] at hip hip'
  obtain ⟨hP, hs⟩ := validBc6h_bounds hvalid
  have hr := region_lt (tables.bc6h c.mode.toNat).P c.shape.toNat i (by omega) hs hi
  rw [rd_refFields6_ix q sg c hi]
  generalize tables.region (tables.bc6h c.mode.toNat).P c.shape.toNat i = r at hr ⊢
  have hend : ∀ e, e / 2 = r → refEndpoint6 c.mode.toNat sg (refFields6 q sg c) e ch =
      refQ6 q sg c (endOf (refSwap6 q sg c r) e) ch := fun e he => by
    rw [refEndpoint6_refFields6 hvalid hfits (by rw [Desc6.ne]; omega) hch, swapped6, he]
  rw [pal6_congr_region _ hend]
  exact pal6_endOf_mirrored _ sg (refQ6 q sg c) r ch hip hip' (refSearch6_fst_lt q sg c i)

theorem chan6_refTile6 {ch : Nat} (hch : ch < 3) :
    chan6 sg (rd (refTile6 c.mode.toNat sg (refFields6 q sg c)) i 0) ch =
      pal6 tables (tables.bc6h c.mode.toNat) sg (refQ6 q sg c)
        (tables.region (tables.bc6h c.mode.toNat).P c.shape.toNat i) (refSearch6 q sg c i).1 ch := by
  obtain ⟨k, hk⟩ := validBc6h_mode hvalid
  have hpal := pal6_refFields6 hvalid hfits hi hch
  have hregion := fits_refQ6_region hvalid hi hch
  obtain ⟨hlo, hhi⟩ := pal6_mem_of_fits (k := k) (refSearch6 q sg c i).1 (hk ▸ hregion)
  rw [← hk] at hlo hhi
  rw [rd_refTile6 _ _ _ hi, chan6_pack6 hch]
  · exact hpal
  · exact (congrArg (fits · 16 sg) hpal).trans (fits_sixteen_of_mem hlo hhi)

/-- Each decoded pixel differs from the tile's by the error the search found (R288 (b), (c)). -/
theorem pixelError6_refTile6 :
    pixelError6 sg (refTile6 c.mode.toNat sg (refFields6 q sg c)) c.tile i = (refSearch6 q sg c i).2 := by
  rw [pixelError6, dist_comm,
    dist_congr _ _ _ _ _ fun ch hch => ⟨rfl, chan6_refTile6 hvalid hfits hi (by fin_cases hch <;> decide)⟩, refSearch6,
    nearest_snd]

end

/-! ## The round trip -/

theorem encoded6_of_exec {q : Bool} {fmt : Fin 3} {c : Candidate} {s t : State} (hfmt : fmt ≠ 0)
    (h : exec (encInstr q fmt c) s = .next t) (hstatus : t.status = .ok) :
    ValidBc6h tables q (fmt == 2) c ∧ FitsBc6h q (fmt == 2) c ∧
      t = (s.acceptEnc (encOp q) (BitVec.ofNat 2 fmt) c).encoded6 q c := by
  obtain ⟨-, hexec⟩ | ⟨hfmt0, -⟩ | ⟨-, hvalid, hfits, hexec⟩ | ⟨-, -, hexec⟩ := exec_encInstr_cases q fmt c
  · obtain rfl := Host.Outcome.next.inj ((hexec s).symm.trans h)
    simp at hstatus
  · exact absurd hfmt0 hfmt
  · exact ⟨hvalid, hfits, (Host.Outcome.next.inj ((hexec s).symm.trans h)).symm⟩
  · obtain rfl := Host.Outcome.next.inj ((hexec s).symm.trans h)
    simp at hstatus

/-- Endpoint registers of the packed fields after the decode; both sides hold 0 where the mode has no endpoint. -/
theorem epAt_endpointFile6_refFields6 {q sg : Bool} {c : Candidate} (hvalid : ValidBc6h tables q sg c)
    (hfits : FitsBc6h q sg c) {e ch : Nat} (he : e < 6) (hch : ch < 3) :
    epAt (endpointFile6 c.mode.toNat sg (refFields6 q sg c)) e ch = swapped6 q sg c e ch := by
  rw [epAt_endpointFile6_eq _ _ he (by omega)]
  split
  next h => exact refEndpoint6_refFields6 hvalid hfits h.1 hch
  next h =>
    rw [swapped6, refQ6, endpointBc6h, if_neg fun h' => h ⟨(endOf_lt_ne6_iff _ _ _).mp h'.1, h'.2⟩]

/-- Settles O45. -/
theorem bc6hRoundTripLaw : Obligations.Bc6hRoundTripLaw := by
  intro q fmt c s t hfmt h hstatus
  obtain ⟨hvalid, hfits, rfl⟩ := encoded6_of_exec hfmt h hstatus
  obtain ⟨k, hk⟩ := validBc6h_mode hvalid
  have hwf := refFields6_wf hvalid
  have hsg : sgOf (s.acceptEnc (encOp q) (BitVec.ofNat 2 fmt) c).fmt = (fmt == 2) := sgOf_fmt fmt
  have hk' : Fin.ofNat 14 (c.mode.toNat - 1) = k := by
    rw [hk, Nat.add_sub_cancel]
    exact Fin.ofNat_val_eq_self k
  have hblk : encode (.bc6h k (refFields6 q (fmt == 2) c)) =
      .bc6h (encode6 c.mode.toNat (refFields6 q (fmt == 2) c)) := by
    rw [encode_bc6h, hk]
  have hdec : decode (.bc6h (encode6 c.mode.toNat (refFields6 q (fmt == 2) c))) =
      .bc6h k (refFields6 q (fmt == 2) c) := by
    rw [← hblk]
    exact bc6hDecodeOfEncode _ _ (by rw [wf_bc6h, ← hk]; exact hwf)
  have herror : ∀ i < 16,
      pixelError6 (fmt == 2) (refTile6 c.mode.toNat (fmt == 2) (refFields6 q (fmt == 2) c)) c.tile i =
        (refSearch6 q (fmt == 2) c i).2 := fun i hi => pixelError6_refTile6 hvalid hfits hi
  have hep (e : Nat) (he : e < 4) (ch : Nat) (hch : ch < 3) :=
    (epAt_endpointFile6_refFields6 hvalid hfits (e := e) (by omega) hch).trans
      (epAt_grid (swapped6 q (fmt == 2) c) (by omega : e < 6) (by omega)).symm
  simp only [State.encoded6, hsg, hk']
  refine ⟨hdec, fun s' hs' => ⟨{ s' with blk := encode6 c.mode.toNat (refFields6 q (fmt == 2) c) }.decoded6 c.mode.toNat
    (refFields6 q (fmt == 2) c), ?_, ?_⟩⟩
  · rw [hdec, exec_bc6h_eq, hk, parse6_encode6 k (hk ▸ hwf)]
  · have hsg' : sgOf s'.fmt = (fmt == 2) := hs' ▸ sgOf_fmt fmt
    simp only [State.decoded6, hsg']
    refine ⟨trivial, trivial, rfl, trivial, hep, tileSum_congr herror, fun r hr => ?_⟩
    rw [rd_tab _ _ _ hr]
    exact regionSum_congr herror

end Sys2Proof.Machine
end
